-- ==== Sys2Proof/Word.lean ====
section
/-! DEFINITION. The plain words of the VC-8's spec: bytes, tags, lane and slot numbers, the two engine
names, a pair of like things (one for each engine), and a sparse table in one canonical form. -/

namespace Sys2Proof

/-- One byte on the request link. -/
abbrev Byte := BitVec 8

/-- The tag of a frame, 0 to 65,535 (R92, R186). -/
abbrev Tag := BitVec 16

/-- A lane number, 0 to 7 (R74). -/
abbrev LaneId := Fin 8

/-- A key slot number, 0 to 3 (R65). -/
abbrev SlotId := Fin 4

/-- A meter number: thirteen decimal digits read as one number, digit 1 the most significant (R1). -/
abbrev MeterNumber := Nat

/-- The two vend engines (R102). -/
inductive EngineId where
  | a
  | b
  deriving DecidableEq, Repr

/-- Two like things, one for engine A and one for engine B. -/
structure Pair (α : Type) where
  a : α
  b : α
  deriving DecidableEq, Repr

/-- The half of a pair that belongs to an engine. -/
def Pair.get {α : Type} (p : Pair α) : EngineId → α
  | .a => p.a
  | .b => p.b

/-- A pair with one engine's half replaced. -/
def Pair.set {α : Type} (p : Pair α) : EngineId → α → Pair α
  | .a, x => { p with a := x }
  | .b, x => { p with b := x }

@[simp] theorem Pair.get_set_same {α : Type} (p : Pair α) (e : EngineId) (x : α) :
    (p.set e x).get e = x := by
  cases e <;> rfl

@[simp] theorem Pair.get_set_other {α : Type} (p : Pair α) (e f : EngineId) (x : α) (h : f ≠ e) :
    (p.set e x).get f = p.get f := by
  cases e <;> cases f <;> first | rfl | exact absurd rfl h

/-- A table from numbers to values that lists only some keys, in rising order of the key. -/
abbrev Sparse (α : Type) := List (Nat × α)

/-- What one read of a word of record memory finds (R146). -/
inductive Finding where
  | sound
  | corrected
  | uncorrectable
  deriving DecidableEq, Repr

/-- The decay a row has suffered since it was last read or written, found by the read that carries it
(R147): the new state of the meter-number word and of the sequence word (both looked at in meter rows only),
how many other words have one flipped bit now, how many words that had one flipped bit have a second,
and how many sound words have lost two bits. -/
structure Decay where
  number : Finding := .sound
  sequence : Finding := .sound
  flipped : Nat := 0
  worsened : Nat := 0
  lost : Nat := 0
  deriving DecidableEq, Repr

end Sys2Proof
end

