-- ==== Sys2Proof/Config.lean ====
section
/-! DEFINITION. What the manual leaves open for good: the internals of the cipher, its key derivation and its
authentication (R61, R62, R68, R129). Each is an uninterpreted constant with no body: a claim about the model
holds whatever they are. DESIGN CHOICE (log entry 8): only the properties the manual states are built in. -/

namespace Sys2Proof.Config

/-- An office key, or the office grant key. The manual gives no width for either. -/
abbrev OfficeKey := Nat

/-- A derived meter key. The manual gives no width for it. -/
abbrev MeterKey := Nat

/-- The key derivation of R62: from an office key and all thirteen digits of the meter number. -/
opaque meterKey : OfficeKey → MeterNumber → MeterKey

/-- The keyed check of R61 over kind, sequence and amount, 29 bits. -/
opaque checkValue : MeterKey → BitVec 3 → BitVec 27 → BitVec 20 → BitVec 29

/-- The keyed permutation of 79-bit values of R62: deterministic, invertible and distinct, since under each
key it is a permutation. -/
opaque permutation : MeterKey → Equiv.Perm (BitVec 79)

/-- The confirmation value of R59, from the meter key of the new generation and the meter number. -/
opaque confirmation : MeterKey → MeterNumber → BitVec 20

/-- The authentication value that verifies under the office grant key over a message (R24, R68, R129). -/
opaque authentication : OfficeKey → List Byte → BitVec 64

/-- The office key that a wrapped key of LOAD_KEY unwraps to under the office grant key (R65, R68). -/
opaque unwrap : OfficeKey → BitVec 256 → OfficeKey

end Sys2Proof.Config
end

