-- ==== Sys2Proof/Syntax.lean ====
section
/-! DEFINITION. The commands the VC-8 takes, one constructor for each row of spec/opcode_table.json: the
thirty-three request kinds of R177, each as a frame that has passed the link's first three checks (its lane,
its tag and the bytes of its body), the events at the lines, and the completions inside the part. -/

namespace Sys2Proof

/-- A command. The requests carry lane, tag and body bytes as received (R186). A completion whose read can
find decay carries that decay (R147). -/
inductive Instr where
  -- counter requests (R177)
  | vend (lane : LaneId) (tag : Tag) (body : List Byte)
  | cancel (lane : LaneId) (tag : Tag) (body : List Byte)
  | collect (lane : LaneId) (tag : Tag) (body : List Byte)
  | resume (lane : LaneId) (tag : Tag) (body : List Byte)
  | laneStatus (lane : LaneId) (tag : Tag) (body : List Byte)
  | lookup (lane : LaneId) (tag : Tag) (body : List Byte)
  | reprint (lane : LaneId) (tag : Tag) (body : List Byte)
  | quote (lane : LaneId) (tag : Tag) (body : List Byte)
  -- supervisor requests (R177)
  | openLane (lane : LaneId) (tag : Tag) (body : List Byte)
  | closeLane (lane : LaneId) (tag : Tag) (body : List Byte)
  | setLane (lane : LaneId) (tag : Tag) (body : List Byte)
  | clearLaneCount (lane : LaneId) (tag : Tag) (body : List Byte)
  | enrol (lane : LaneId) (tag : Tag) (body : List Byte)
  | amend (lane : LaneId) (tag : Tag) (body : List Byte)
  | retire (lane : LaneId) (tag : Tag) (body : List Byte)
  | reinstate (lane : LaneId) (tag : Tag) (body : List Byte)
  | purge (lane : LaneId) (tag : Tag) (body : List Byte)
  | purgeRow (lane : LaneId) (tag : Tag) (body : List Byte)
  | restore (lane : LaneId) (tag : Tag) (body : List Byte)
  | setTariff (lane : LaneId) (tag : Tag) (body : List Byte)
  | clearPendingTariff (lane : LaneId) (tag : Tag) (body : List Byte)
  | readTariff (lane : LaneId) (tag : Tag) (body : List Byte)
  | loadKey (lane : LaneId) (tag : Tag) (body : List Byte)
  | dropKey (lane : LaneId) (tag : Tag) (body : List Byte)
  | readKeys (lane : LaneId) (tag : Tag) (body : List Byte)
  | enableEngineB (lane : LaneId) (tag : Tag) (body : List Byte)
  | grant (lane : LaneId) (tag : Tag) (body : List Byte)
  | closeDay (lane : LaneId) (tag : Tag) (body : List Byte)
  | closeMonth (lane : LaneId) (tag : Tag) (body : List Byte)
  | setMemoryAlarm (lane : LaneId) (tag : Tag) (body : List Byte)
  | clearEvents (lane : LaneId) (tag : Tag) (body : List Byte)
  | readStatus (lane : LaneId) (tag : Tag) (body : List Byte)
  | setOffice (lane : LaneId) (tag : Tag) (body : List Byte)
  -- the link (R174 to R176)
  /-- A selection in IDLE whose bytes on MOSI carry no frame that passes the first three checks of R176. -/
  | badFrame (bytes : List Byte)
  /-- A selection that carries a frame while a reply is being formed or is waiting (R175). -/
  | frameDiscarded (bytes : List Byte)
  /-- A selection in REPLY_READY that clocks `count` bytes on MISO (R174). -/
  | replyRead (count : Nat)
  -- lines and timers
  | tick
  | idleExpiry (lane : LaneId)
  | dayAgeMinute
  /-- MAINS_OK takes the level `high` or low (R163). -/
  | mainsOkChange (high : Bool)
  /-- PWR_WARN takes the level `high` or low (R163). -/
  | pwrWarnChange (high : Bool)
  /-- Power-up or the release of RESET. `landed` says whether a row write in progress left its row old (none) or
  new, and then which decay the operation's read had found (R147, R165; log entry 6). -/
  | reset (landed : Option Decay)
  -- events and completions inside the part
  | dispatch
  | claimRetaken
  | waitingSupervisorRetaken
  | itemReadDone (decay : Decay)
  | tokenComputed
  | grantVerified
  | loadKeyVerified
  | restoreVerified
  | commitMarkerWritten
  | commitMeterRowWritten
  | commitOfficeRowWritten
  | commitCleared
  | recordWriteDone (decay : Decay)
  | counterReadDone (decay : Decay)
  | setTariffWriteDone
  | clearTariffWriteDone
  | keyWriteDone
  | dropKeyWriteDone
  | laneSettingsWriteDone
  | grantWriteDone
  | closeDayWriteDone
  | closeMonthWriteDone
  | monthAdvance
  | dayAgeWriteDone
  | setOfficeWriteDone
  | memoryAlarmWriteDone
  | scrubberStep
  | scrubberReadDone (decay : Decay)
  | startupOfficeRowRead (decay : Decay)
  | rollForwardWriteDone
  | scanRowRead (decay : Decay)
  | commitRowRead (decay : Decay)
  | resetAsserted
  deriving DecidableEq, Repr

end Sys2Proof
end

