-- ==== Sys2Proof/Machine/State.lean ====
section
/-! DEFINITION. The state of the VC-8 as plain data: every record, row, register, list, flag and line the spec
gives the part, the queue of waiting commands, and the state right after a reset with record memory as it
leaves the factory. -/

namespace Sys2Proof.Machine

open Sys2Proof

/-! ## The link: kinds, codes, marks -/

/-- The request kinds in the order of the catalogue of R177; R184 numbers them 1 to 33. -/
inductive Kind where
  | vend | cancel | collect | resume | laneStatus
  | lookup | reprint
  | quote
  | openLane | closeLane | setLane | clearLaneCount
  | enrol | amend | retire | reinstate | purge | purgeRow | restore
  | setTariff | clearPendingTariff | readTariff
  | loadKey | dropKey | readKeys
  | enableEngineB
  | grant | closeDay | closeMonth
  | setMemoryAlarm
  | clearEvents | readStatus | setOffice
  deriving DecidableEq, Repr

/-- The result codes in the order of the table of section 9.4; R184 numbers them 0 to 33. -/
inductive ResultCode where
  | done | accepted | cancelled
  | badFrame | badLane | unknownRequest
  | starting | fault
  | notSupervisor
  | badField
  | laneState | laneBusy
  | badOperator
  | queueFull | duplicateTag
  | badMeterNumber | outsideZone
  | dayOverdue | supply
  | noMeter | meterBusy | meterState | damaged
  | duplicateMeter | tableFull
  | badAuth | staleGrant
  | duplicateKey | keyInUse
  | noResult | notFound | tooLate
  | dayLimit | monthLimit
  deriving DecidableEq, Repr

/-- The codes of a REFUSED item in the order of section 9.4; R184 numbers them 1 to 12. -/
inductive RefusalCode where
  | noMeter | damaged | meterState | dayOverdue | classUndefined | limitLow | limitHigh
  | keyUnavailable | amountOverflow | sequenceExhausted | noAuthority | nothingDue
  deriving DecidableEq, Repr

/-- The causes of a SKIPPED item (R121, R123). -/
inductive SkipCause where
  | priorRefusal
  | supply
  deriving DecidableEq, Repr

/-- The five sticky event flags of R178; true means set. -/
structure EventFlags where
  authorityLow : Bool := false
  laneBarred : Bool := false
  dayOverdue : Bool := false
  rowDamaged : Bool := false
  supplyChange : Bool := false
  deriving DecidableEq, Repr

/-- The attention mask of R179: for each flag and each level condition, whether it is enabled. Also the set
that CLEAR_EVENTS names (R180). -/
structure AttentionMask where
  authorityLow : Bool := false
  laneBarred : Bool := false
  dayOverdue : Bool := false
  rowDamaged : Bool := false
  supplyChange : Bool := false
  resultWaiting : Bool := false
  memoryAlarm : Bool := false
  deriving DecidableEq, Repr

/-- The office settings of R182. -/
structure OfficeSettings where
  idleLimit : Nat := 0
  dayLimit : Nat := 0
  lowMark : Nat := 0
  mask : AttentionMask := {}
  supervisorCode : Nat := 0
  officeId : Nat := 0
  deriving DecidableEq, Repr

/-! ## Meter records -/

/-- The seven token kinds of R53, numbered 0 to 6 in this order. -/
inductive TokenKind where
  | credit | allowance | keyChangeA | keyChangeB | clearTamper | setLoadLimit | clearCredit
  deriving DecidableEq, Repr

/-- A token as a result and a last sale hold it (R53). Its 24 digits are the decimal rendering of `value`, the
enciphered 79-bit number (R63). -/
structure Token where
  kind : TokenKind
  sequence : Nat
  generation : Nat
  amount : Nat
  value : BitVec 79
  deriving DecidableEq, Repr

/-- A sale group: the tokens of one item with its tender and paid energy (R4). -/
structure SaleGroup where
  tokens : List Token
  tender : Nat
  paidEnergy : Nat
  deriving DecidableEq, Repr

/-- The three stored statuses of R2. -/
inductive Status where
  | active
  | suspended
  | retired
  deriving DecidableEq, Repr

/-- A meter record, field by field as R1 lists it. -/
structure MeterRecord where
  meter : MeterNumber
  status : Status
  tariffClass : Nat
  keyGeneration : Nat
  pendingGeneration : Option Nat
  sequence : Nat
  monthStamp : Nat
  monthEnergy : Nat
  chargePaid : Nat
  allowanceIssued : Bool
  arrears : Nat
  recoveryRate : Nat
  carry : Nat
  lastSale : Option SaleGroup
  deriving DecidableEq, Repr

/-! ## Tariffs -/

/-- A bounded block: its price in points and its upper threshold in tenths (R30). -/
structure Block where
  price : Nat
  threshold : Nat
  deriving DecidableEq, Repr

/-- A defined tariff class (R30): its bounded blocks in order, then the price of its last, unbounded block. -/
structure TariffClass where
  tenderMin : Nat
  tenderMax : Nat
  charge : Nat
  allowance : Nat
  bounded : List Block
  lastPrice : Nat
  deriving DecidableEq, Repr

/-- A tariff bank with its effective month; class k of R30 stands at place k - 1 (R31). -/
structure Bank where
  effective : Nat
  classes : Vector (Option TariffClass) 15
  deriving DecidableEq, Repr

/-- The tariff unit's own copies (R31, R32): each bank with the tariff row that gives it, and the month-advance
events handed to the unit and not yet taken, oldest first (R139). -/
structure TariffUnit where
  active : Option (Fin 2 × Bank) := none
  pending : Option (Fin 2 × Bank) := none
  advances : List Nat := []
  deriving DecidableEq, Repr

/-! ## VEND requests, results and lanes -/

/-- One item of a VEND request (R92). -/
inductive Item where
  | purchase (meter : MeterNumber) (tender : Nat)
  | service (meter : MeterNumber) (kind : TokenKind) (amount : Nat)
  deriving DecidableEq, Repr

/-- A queued VEND request. -/
structure VendRequest where
  tag : Tag
  items : List Item
  deriving DecidableEq, Repr

/-- The content of a DONE outcome (R120). `blockReached` is 0 for a service item. -/
structure DoneOutcome where
  tokens : List Token
  tender : Nat
  recovered : Nat
  collected : Nat
  energyCost : Nat
  carry : Nat
  bought : Nat
  blockReached : Nat
  arrearsRemaining : Nat
  arrearsCleared : Bool
  deriving DecidableEq, Repr

/-- The outcome of one item (R98). -/
inductive ItemOutcome where
  | done (d : DoneOutcome)
  | refused (code : RefusalCode)
  | skipped (cause : SkipCause)
  deriving DecidableEq, Repr

/-- The result of a request: its tag and one outcome per item, in item order (R98). -/
structure VendResult where
  tag : Tag
  outcomes : List ItemOutcome
  deriving DecidableEq, Repr

/-- The four lane states of R79. -/
inductive LaneState where
  | closed
  | opened
  | restricted
  | barred
  deriving DecidableEq, Repr

/-- A signed-on operator (R74). Lane 0 keeps no operator code of its own (R82). -/
structure Operator where
  id : Nat
  code : Option Nat
  deriving DecidableEq, Repr

/-- A lane's shift tally (R74, R100). -/
structure ShiftTally where
  money : Nat := 0
  purchases : Nat := 0
  tokens : Nat := 0
  refused : Nat := 0
  deriving DecidableEq, Repr

/-- The volatile context of a lane (R74). `expiryDue` is the model's own: a TICK has brought the lane's idle
seconds to the limit and its IDLE_EXPIRY is still to be taken (log entry 3). -/
structure Lane where
  state : LaneState := .closed
  locked : Bool := false
  operator : Option Operator := none
  count : Nat := 0
  idle : Nat := 0
  expiryDue : Bool := false
  queue : List VendRequest := []
  inFlight : List (Tag × EngineId) := []
  foreground : Option VendResult := none
  background : Option VendResult := none
  tally : ShiftTally := {}
  deriving DecidableEq, Repr

/-- The modes of a zone filter (R76). -/
inductive FilterMode where
  | wide
  | pair
  | quad
  | closed
  deriving DecidableEq, Repr

/-- One code digit of a zone filter with its care mark (R76). -/
structure CodeDigit where
  value : Nat := 0
  cared : Bool := false
  deriving DecidableEq, Repr

/-- A lane's persistent settings (R75), at their factory values by default. -/
structure LaneSettings where
  priority : Fin 4 := 1
  maskA : Bool := true
  maskB : Bool := false
  batteryService : Bool := true
  mode : FilterMode := .wide
  code : Vector CodeDigit 8 := Vector.replicate 8 {}
  deriving DecidableEq, Repr

/-! ## Engines and the meter lock table -/

/-- The values a completed purchase calculation hands back (R39). -/
structure Calculation where
  recovered : Nat
  arrears : Nat
  arrearsCleared : Bool
  collected : Nat
  chargePaid : Nat
  bought : Nat
  monthEnergy : Nat
  blockReached : Nat
  energyCost : Nat
  carry : Nat
  allowance : Option Nat
  allowanceIssued : Bool
  deriving DecidableEq, Repr

/-- A token of a group that has been numbered and not yet computed (R57, R64). For KEY_CHANGE_B, `confirms` is
the new generation and the amount is not known yet. -/
structure PlannedToken where
  kind : TokenKind
  sequence : Nat
  generation : Nat
  amount : Nat
  confirms : Option Nat
  deriving DecidableEq, Repr

/-- The stages of an item (R112). -/
inductive Stage where
  | claim | read | check | reserve | tokens | commit | close
  deriving DecidableEq, Repr

/-- The working values of an engine's current item (R102). `row` is the meter row the item read at stage 2, and
`slots` the key slots whose in-use counts it has raised. -/
structure WorkingValues where
  month : Nat := 0
  row : Option Nat := none
  record : Option MeterRecord := none
  snapshot : Option TariffClass := none
  calculation : Option Calculation := none
  planned : List PlannedToken := []
  tokens : List Token := []
  reserved : Nat := 0
  slots : List SlotId := []
  deriving DecidableEq, Repr

/-- What a BUSY engine holds (R102): the request in hand, the item now processed (counted from 0 here, from 1 in
reports), its stage, the outcomes of the items already ended and the working values. -/
structure BusyEngine where
  lane : LaneId
  tag : Tag
  items : List Item
  item : Nat
  stage : Stage
  outcomes : List ItemOutcome
  work : WorkingValues
  deriving DecidableEq, Repr

/-- The four engine states of R102. -/
inductive Engine where
  | disabled
  | idle
  | parked
  | busy (b : BusyEngine)
  deriving DecidableEq, Repr

/-! ## Requests in hand: decoded fields -/

/-- The fields of ENROL (R17). -/
structure EnrolFields where
  meter : MeterNumber
  tariffClass : Nat
  keyGeneration : Nat
  arrears : Nat
  recoveryRate : Nat
  sequenceFloor : Nat
  deriving DecidableEq, Repr

/-- The fields of AMEND (R18). -/
structure AmendFields where
  meter : MeterNumber
  tariffClass : Option Nat
  arrears : Option Nat
  recoveryRate : Option Nat
  status : Option Status
  pendingGeneration : Option Nat
  removePending : Bool
  deriving DecidableEq, Repr

/-- The fields of RESTORE (R24): the image as received (its last sale absent), the authenticated bytes, the
authentication value and the optional target row. -/
structure RestoreFields where
  image : MeterRecord
  message : List Byte
  authentication : BitVec 64
  target : Option Nat
  deriving DecidableEq, Repr

/-- The fields of GRANT (R129) with the authenticated bytes. -/
structure GrantFields where
  officeId : Nat
  serial : Nat
  amount : Nat
  message : List Byte
  authentication : BitVec 64
  deriving DecidableEq, Repr

/-- The fields of LOAD_KEY (R68). -/
structure LoadKeyFields where
  slot : SlotId
  generation : Nat
  wrapped : BitVec 256
  authentication : BitVec 64
  deriving DecidableEq, Repr

/-- A supervisor record operation (R16, R23). -/
inductive RecordOp where
  | enrol (f : EnrolFields)
  | amend (f : AmendFields)
  | retire (meter : MeterNumber)
  | reinstate (meter : MeterNumber)
  | purge (meter : MeterNumber)
  | purgeRow (row : Nat)
  | restore (f : RestoreFields)
  deriving DecidableEq, Repr

/-- What a counter read is for (R27, R28, R50). -/
inductive CounterQuery where
  | lookup (meter : MeterNumber)
  | reprint (meter : MeterNumber)
  | quote (meter : MeterNumber) (tender : Nat)
  deriving DecidableEq, Repr

/-- The meter lock table (R109): the meters held by engine A, engine B and the scrubber, the engine claims
that wait, oldest first, and the supervisor request that waits for the scrubber (R15). -/
structure LockTable where
  engines : Pair (Option MeterNumber) := ⟨none, none⟩
  scrubber : Option MeterNumber := none
  waiting : List (EngineId × MeterNumber) := []
  supervisor : Option RecordOp := none
  deriving DecidableEq, Repr

/-! ## Key slots and the cipher -/

/-- The three slot states of R65. -/
inductive SlotState where
  | empty
  | loaded (generation : Nat) (key : Config.OfficeKey)
  | changing
  deriving DecidableEq, Repr

/-- A key slot with its in-use count (R65, R66). -/
structure KeySlot where
  state : SlotState := .empty
  inUse : Nat := 0
  deriving DecidableEq, Repr

/-- A request for the cipher (R64, R72): a token of an engine's item, or a supervisor verification. -/
inductive CipherRequest where
  | token (engine : EngineId) (meter : MeterNumber) (token : PlannedToken)
  | grant (f : GrantFields)
  | loadKey (f : LoadKeyFields)
  | restore (f : RestoreFields)
  deriving DecidableEq, Repr

/-- The cipher and its arbiter (R72): the operation in hand (none when FREE), the waiting requests in order of
arrival, and the last-served engine. -/
structure Cipher where
  busy : Option CipherRequest := none
  waiting : List CipherRequest := []
  lastServed : EngineId := .b
  deriving DecidableEq, Repr

/-! ## Authority and calendar -/

/-- The day tally (R134), and equally the increments one item brings to it (R135). -/
structure DayTally where
  money : Nat := 0
  arrears : Nat := 0
  charge : Nat := 0
  energyCost : Nat := 0
  paidEnergy : Nat := 0
  allowanceEnergy : Nat := 0
  purchases : Nat := 0
  services : Nat := 0
  tokens : Nat := 0
  deriving DecidableEq, Repr

/-- The authority and calendar unit (R127, R134, R138, R140, R142, R145): amounts, calendar, tally, overdue flag
and commit counts as the unit holds them, the reserved amount, the day age in minutes and its prescaler. -/
structure Authority where
  granted : Nat := 0
  spent : Nat := 0
  reserved : Nat := 0
  lastSerial : Nat := 0
  day : Nat := 0
  month : Nat := 0
  tally : DayTally := {}
  overdue : Bool := false
  commitCounts : Pair (BitVec 32) := ⟨0, 0⟩
  dayAge : Nat := 0
  prescaler : Nat := 0
  deriving DecidableEq, Repr

/-! ## Record memory -/

/-- How many words of a row (of a meter row: of its body words) have one flipped bit, and how many are lost
(R146). -/
structure Rot where
  flipped : Nat := 0
  lost : Nat := 0
  deriving DecidableEq, Repr

/-- The findings that the words of a meter row hold (R146). -/
structure MeterWords where
  number : Finding := .sound
  sequence : Finding := .sound
  body : Rot := {}
  deriving DecidableEq, Repr

/-- A meter row: a record, or the free mark (`none`), and the findings of its words (R145, R146). -/
structure MeterRow where
  content : Option MeterRecord := none
  words : MeterWords := {}
  deriving DecidableEq, Repr

/-- A row of another kind: its content and the findings of its words. -/
structure Row (α : Type) where
  content : α
  rot : Rot := {}
  deriving DecidableEq, Repr

/-- The content of the office row (R145), at its factory values by default (R127, R134, R138, R141, R142, R153, R182). -/
structure OfficeRow where
  granted : Nat := 0
  spent : Nat := 0
  lastSerial : Nat := 0
  day : Nat := 0
  month : Nat := 0
  tally : DayTally := {}
  dayAgeHours : Nat := 0
  overdue : Bool := false
  commitCounts : Pair (BitVec 32) := ⟨0, 0⟩
  settings : OfficeSettings :=
    { idleLimit := 600, dayLimit := 26, lowMark := 0
      mask := ⟨true, true, true, true, true, true, true⟩
      supervisorCode := 0, officeId := 0 }
  alarmExponent : Nat := 4
  deriving DecidableEq, Repr

/-- The content of a loaded key row (R65): a generation with its office key. -/
structure KeyContent where
  generation : Nat
  key : Config.OfficeKey
  deriving DecidableEq, Repr

/-- A commit marker (R158). -/
structure Marker where
  row : Nat
  image : MeterRecord
  tender : Nat
  increments : DayTally
  count : BitVec 32
  deriving DecidableEq, Repr

/-- Record memory (R145): the rows that keep their content through every reset. Meter rows are listed sparsely:
an unlisted row holds the free mark and is sound, as it leaves the factory. -/
structure RecordMemory where
  meters : Sparse MeterRow := []
  office : Row OfficeRow := ⟨{}, {}⟩
  tariffs : Vector (Row (Option Bank)) 2 := Vector.replicate 2 ⟨none, {}⟩
  keys : Vector (Row (Option KeyContent)) 4 := Vector.replicate 4 ⟨none, {}⟩
  lanes : Row (Vector LaneSettings 8) := ⟨Vector.replicate 8 {}, {}⟩
  commits : Pair (Row (Option Marker)) := ⟨⟨none, {}⟩, ⟨none, {}⟩⟩
  deriving DecidableEq, Repr

/-- The name of a row of record memory: its kind and its number (R145). -/
inductive RowId where
  | meter (n : Nat)
  | office
  | tariff (i : Fin 2)
  | key (i : SlotId)
  | laneSettings
  | commit (e : EngineId)
  deriving DecidableEq, Repr

/-! ## The record store -/

/-- The row conditions of R9, and the undetermined condition between a reset and the scan (R13). -/
inductive RowCondition where
  | undetermined
  | free
  | allocated
  | record
  | orphan
  deriving DecidableEq, Repr

/-- A write of the office row, by what it changes (R128, R130, R136, R139, R141, R142, R132, R160, R182, R154). -/
inductive OfficeWrite where
  | grant (amount serial : Nat)
  | closeDay
  | closeMonth
  | dayAge
  | commit (engine : EngineId) (marker : Marker)
  | rollForward (engine : EngineId) (marker : Marker)
  | setOffice (settings : OfficeSettings)
  | setAlarm (exponent count : Nat)
  deriving DecidableEq, Repr

/-- A row operation of the record store (R148). -/
inductive RowOp where
  | itemRead (engine : EngineId) (meter : MeterNumber)
  | counterRead (lane : LaneId) (query : CounterQuery)
  | record (op : RecordOp)
  | scrub (row : RowId)
  | commitMarker (engine : EngineId) (marker : Marker)
  | commitMeter (engine : EngineId) (marker : Marker)
  | commitClear (engine : EngineId)
  | office (write : OfficeWrite)
  | setTariff (row : Fin 2) (bank : Bank)
  | clearTariff (row : Fin 2)
  | loadKey (slot : SlotId) (content : KeyContent)
  | dropKey (slot : SlotId) (generation : Nat)
  | setLane (lane : LaneId) (settings : LaneSettings) (namesEngine : Bool)
  | startOffice (row : RowId)
  | startCommit (engine : EngineId)
  | rollMeter (engine : EngineId) (marker : Marker)
  | rollClear (engine : EngineId)
  | scan (row : Nat)
  deriving DecidableEq, Repr

/-- An operation the store has taken: with the office row formed as it was taken (R128), or the free row it took
and made ALLOCATED (R17, R26). -/
structure TakenOp where
  op : RowOp
  office : Option OfficeRow := none
  row : Option Nat := none
  deriving DecidableEq, Repr

/-- The scrubber (R155): its position, its completed-pass count, and whether a step has a read under way. -/
structure Scrubber where
  position : RowId := .meter 0
  passes : Nat := 0
  reading : Bool := false
  deriving DecidableEq, Repr

/-- The record store's volatile state (R148, R161). The index maps meter numbers to meter rows; conditions are
listed sparsely, an unlisted row being undetermined; the damaged set is in rising order. -/
structure Store where
  inProgress : Option TakenOp := none
  waiting : List RowOp := []
  index : Sparse Nat := []
  freeList : List Nat := []
  conditions : Sparse RowCondition := []
  damaged : List Nat := []
  orphans : List Nat := []
  overflow : Bool := false
  errorCount : Nat := 0
  alarmExponent : Nat := 4
  scrubber : Scrubber := {}
  deriving DecidableEq, Repr

/-! ## Supply, office state, replies -/

/-- The supply states of R162. -/
inductive Supply where
  | mains
  | battery
  | holding
  deriving DecidableEq, Repr

/-- The office states of R166. -/
inductive OfficeState where
  | starting
  | ready
  | fault
  deriving DecidableEq, Repr

/-- The fault record of R172: the row, and whether the scrubber (else start-up) found it. -/
structure FaultRecord where
  row : RowId
  byScrubber : Bool
  deriving DecidableEq, Repr

/-- What LANE_STATUS reports of a lane (R101). -/
structure LaneReport where
  lane : LaneId
  state : LaneState
  locked : Bool
  operatorId : Option Nat
  count : Nat
  warning : Bool
  idle : Nat
  queue : List Tag
  inFlight : List (Tag × EngineId)
  foreground : Option Tag
  background : Option Tag
  tally : ShiftTally
  settings : LaneSettings
  deriving DecidableEq, Repr

/-- What LOOKUP reports (R27): the record with virtual rollover, and the hit (0 on lane 0). -/
structure LookupReport where
  row : Nat
  image : MeterRecord
  hit : Nat
  deriving DecidableEq, Repr

/-- The outcomes of a QUOTE (R51). -/
inductive QuoteOutcome where
  | pass (values : Calculation) (kinds : List TokenKind) (firstSequence : Nat)
  | classUndefined
  | limitLow (min max : Nat)
  | limitHigh (min max : Nat)
  | amountOverflow
  | nothingDue
  | sequenceExhausted
  deriving DecidableEq, Repr

/-- What READ_TARIFF reports (R36). -/
structure TariffReport where
  activeMonth : Option Nat
  pendingMonth : Option Nat
  tariffClass : Option TariffClass
  deriving DecidableEq, Repr

/-- What READ_STATUS reports of an engine (R102, R181). -/
inductive EngineReport where
  | disabled
  | idle
  | parked
  | busy (lane : LaneId) (tag : Tag) (item : Nat) (stage : Stage)
  deriving DecidableEq, Repr

/-- What READ_STATUS reports (R181). -/
structure StatusReport where
  office : OfficeState
  startupStep : Option Nat
  nextRow : Option Nat
  fault : Option FaultRecord
  supply : Supply
  events : EventFlags
  resultWaiting : Bool
  memoryAlarm : Bool
  available : Nat
  reserved : Nat
  granted : Nat
  spent : Nat
  lastSerial : Nat
  day : Nat
  month : Nat
  dayAge : Nat
  overdue : Bool
  engines : Pair EngineReport
  errorCount : Nat
  alarmExponent : Nat
  damagedRows : Nat
  orphans : List Nat
  overflow : Bool
  passes : Nat
  settings : OfficeSettings
  deriving DecidableEq, Repr

/-- The body of a reply, by its content; Machine/Replies.lean gives its bytes. -/
inductive ReplyBody where
  | empty
  | queued (count : Nat)
  | failingItem (number : Nat)
  | result (outcomes : List ItemOutcome)
  | lane (report : LaneReport)
  | shiftTally (tally : ShiftTally)
  | laneSettings (settings : LaneSettings)
  | priorState (state : LaneState)
  | row (row : Nat)
  | sequence (sequence : Nat)
  | rowAndSequence (row sequence : Nat)
  | record (report : LookupReport)
  | sale (sale : SaleGroup)
  | quote (outcome : QuoteOutcome)
  | failingClass (number : Nat)
  | bankCleared (cleared : Bool)
  | tariff (report : TariffReport)
  | keyLoaded (slot : SlotId) (generation : Nat)
  | keyDropped (generation : Option Nat)
  | keys (slots : List (Option Nat × Nat))
  | engineEnabled (now : Bool)
  | granted (serial granted available : Nat)
  | dayClosed (day : Nat) (tally : DayTally)
  | month (month : Nat)
  | alarm (exponent count : Nat)
  | events (flags : EventFlags) (resultWaiting memoryAlarm : Bool)
  | status (report : StatusReport)
  | settings (settings : OfficeSettings)
  deriving DecidableEq, Repr

/-- The lane, kind and tag of a request as received (R176). -/
structure Header where
  lane : Byte
  kind : Byte
  tag : Tag
  deriving DecidableEq, Repr

/-- A reply (R176): header, result code, warning and overlap marks, body. -/
structure Reply where
  header : Header
  code : ResultCode
  warning : Bool
  overlap : Bool
  body : ReplyBody
  deriving DecidableEq, Repr

/-- The exchange state of the link (R174). In WORKING it holds the request's lane, its header and the overlap
mark of the reply in hand (R175). READY is high exactly in REPLY_READY. -/
inductive Exchange where
  | idle
  | working (lane : LaneId) (header : Header) (overlap : Bool)
  | replyReady (reply : Reply)
  deriving DecidableEq, Repr

/-! ## The whole machine -/

/-- The state of the VC-8, with the queue of commands that wait, first in first out. -/
structure State where
  /-- The commands that wait to be taken, the front first (the model's own queue). -/
  pending : List Instr := []
  /-- The level of the MAINS_OK input. -/
  mainsOk : Bool := true
  /-- The level of the PWR_WARN input. -/
  pwrWarn : Bool := false
  /-- The RESET line is held asserted (R165). -/
  resetHeld : Bool := false
  supply : Supply := .mains
  office : OfficeState := .starting
  faultRecord : Option FaultRecord := none
  exchange : Exchange := .idle
  events : EventFlags := {}
  /-- The office settings in force: the copies the units took at step 1 of start-up (R167) or at SET_OFFICE (R183). -/
  settings : OfficeSettings := {}
  lanes : Vector Lane 8 := Vector.replicate 8 {}
  /-- The lane bank's settings in force (R75). -/
  laneSettings : Vector LaneSettings 8 := Vector.replicate 8 {}
  engines : Pair Engine := ⟨.idle, .disabled⟩
  /-- The dispatcher's last-served lane of each priority level (R106). -/
  lastServed : Vector LaneId 4 := Vector.replicate 4 7
  locks : LockTable := {}
  tariff : TariffUnit := {}
  slots : Vector KeySlot 4 := Vector.replicate 4 {}
  cipher : Cipher := {}
  /-- The office grant key, installed when the part is personalised and kept across every reset (R65). -/
  grantKey : Config.OfficeKey := 0
  authority : Authority := {}
  store : Store := {}
  memory : RecordMemory := {}
  deriving DecidableEq, Repr

/-- The reasons the machine can stop with a fault. There is none: the spec gives every command an effect in every
state, and an office FAULT (R166) is a state of the machine, not a stop. -/
inductive Fault where
  deriving DecidableEq, Repr

/-- The reasons a command is refused a meaning. -/
inductive Refusal where
  /-- Raised by exec's arm for a command that has no meaning yet, named by its mnemonic. Safe: the run stops. -/
  | notModelled (mnemonic : String)
  deriving DecidableEq, Repr

/-- The machine right after a reset that ends with MAINS_OK high and PWR_WARN low and finds record memory as it
left the factory (R145, R165): the office is STARTING, and the read of the office row, the first of start-up's,
is in progress (R167). DESIGN CHOICE (log entry 7) for the input levels and the grant key. -/
def State.reset : State :=
  { store := { inProgress := some { op := .startOffice .office } } }

end Sys2Proof.Machine
end

