-- ==== Sys2Proof/Machine/Operands.lean ====
section
/-! DEFINITION. The operands of the requests: the field encodings of R184, the body layouts of R185, R188 and R189
with the ranges their owning rules give, the check digit of R191 and the zone filter of R76 and R77. A body that
is malformed (R185), or that holds a value its rule refuses, decodes to `none`: the request is answered BAD_FIELD. -/

namespace Sys2Proof.Machine

open Sys2Proof

/-! ## Numbers and digit strings (R184) -/

/-- An unsigned number, most significant byte first. -/
def bytesToNat (bs : List Byte) : Nat :=
  bs.foldl (fun n b => n * 256 + b.toNat) 0

/-- The bytes of a number in a field of `width` bytes, most significant first. -/
def natToBytes : Nat → Nat → List Byte
  | 0, _ => []
  | width + 1, n => BitVec.ofNat 8 (n / 256 ^ width) :: natToBytes width n

/-- The number whose decimal digits, leftmost first, are the bytes' values. -/
def digitsToNat (bs : List Byte) : Nat :=
  bs.foldl (fun n b => n * 10 + b.toNat) 0

/-- The `count` decimal digits of a number, leftmost first, one byte each. -/
def natToDigits : Nat → Nat → List Byte
  | 0, _ => []
  | count + 1, n => BitVec.ofNat 8 (n / 10 ^ count % 10) :: natToDigits count n

/-- Reads a number of `width` bytes; answers it with the bytes that follow. -/
def readNumber (width : Nat) (bs : List Byte) : Option (Nat × List Byte) :=
  if width ≤ bs.length then some (bytesToNat (bs.take width), bs.drop width) else none

/-- Reads a number of `width` bytes that lies from `lo` to `hi`. -/
def readRange (width lo hi : Nat) (bs : List Byte) : Option (Nat × List Byte) :=
  match readNumber width bs with
  | some (n, rest) => if lo ≤ n ∧ n ≤ hi then some (n, rest) else none
  | none => none

/-- Reads a digit string of `count` digits; a digit byte above 9 is malformed (R185). -/
def readDigits (count : Nat) (bs : List Byte) : Option (Nat × List Byte) :=
  if count ≤ bs.length ∧ (bs.take count).all (fun b => b.toNat ≤ 9) then
    some (digitsToNat (bs.take count), bs.drop count)
  else none

/-- Reads a choice of `values` values, 0 and up; any other value is malformed (R185). -/
def readChoice (values : Nat) (bs : List Byte) : Option (Nat × List Byte) :=
  readRange 1 0 (values - 1) bs

/-- Reads a yes-or-no byte that a layout assigns 0 no, 1 yes, or a member of a set (R185). -/
def readFlag (bs : List Byte) : Option (Bool × List Byte) :=
  match readChoice 2 bs with
  | some (n, rest) => some (n == 1, rest)
  | none => none

/-- Reads an optional number of `width` bytes behind its presence byte; the bytes of an absent field are not read
(R184). -/
def readOptional (width lo hi : Nat) (bs : List Byte) : Option (Option Nat × List Byte) :=
  match readChoice 2 bs with
  | some (0, rest) => if width ≤ rest.length then some (none, rest.drop width) else none
  | some (_, rest) =>
    match readRange width lo hi rest with
    | some (n, rest') => some (some n, rest')
    | none => none
  | none => none

/-- Reads `count` bytes as they stand. -/
def readBytes (count : Nat) (bs : List Byte) : Option (List Byte × List Byte) :=
  if count ≤ bs.length then some (bs.take count, bs.drop count) else none

/-- A body that must end here: anything left makes its length wrong (R185). -/
def readEnd {α : Type} (x : α) (rest : List Byte) : Option α :=
  if rest.isEmpty then some x else none

/-! ## Meter numbers and zone filters -/

/-- Digit `k` of a meter number, counted from the left from 1 to 13. -/
def meterDigit (m : MeterNumber) (k : Nat) : Nat :=
  m / 10 ^ (13 - k) % 10

/-- The check digit that digits 1 to 12 give (R191): weight 3 for the odd-numbered digits and 1 for the even. -/
def checkDigit (m : MeterNumber) : Nat :=
  let sum := ((List.range 12).map fun i => (if i % 2 = 0 then 3 else 1) * meterDigit m (i + 1)).sum
  (10 - sum % 10) % 10

/-- A meter number is accepted when digit 13 is its check digit (R191). -/
def meterOk (m : MeterNumber) : Bool :=
  meterDigit m 13 == checkDigit m

/-- The components of a zone filter, each the list of (meter digit, code digit) it compares (R76). -/
def filterComponents : FilterMode → List (List (Nat × Nat))
  | .wide => [[(1, 1), (2, 2), (3, 3), (4, 4), (5, 5), (6, 6), (7, 7), (8, 8)]]
  | .pair => [[(1, 1), (2, 2), (3, 3), (4, 4)], [(1, 5), (2, 6), (3, 7), (4, 8)]]
  | .quad => [[(1, 1), (2, 2)], [(1, 3), (2, 4)], [(1, 5), (2, 6)], [(1, 7), (2, 8)]]
  | .closed => []

/-- A component passes a meter when every cared code digit equals the meter digit it is compared with (R77). -/
def componentPasses (code : Vector CodeDigit 8) (m : MeterNumber) (pairs : List (Nat × Nat)) : Bool :=
  pairs.all fun p =>
    match code[p.2 - 1]? with
    | some c => !c.cared || meterDigit m p.1 == c.value
    | none => true

/-- The hit of R77: the number, from 1, of the first component that passes. -/
def zoneHit (st : LaneSettings) (m : MeterNumber) : Option Nat :=
  ((filterComponents st.mode).findIdx? (componentPasses st.code m)).map (· + 1)

/-- A meter passes the filter of a lane's settings; lane 0 applies none (R75, R77). -/
def zoneAdmits (lane : LaneId) (st : LaneSettings) (m : MeterNumber) : Bool :=
  lane == 0 || (zoneHit st m).isSome

/-! ## Limits of R1, R53 and R57 -/

/-- The top of the sequence numbers (R57). -/
def maxSequence : Nat := 99999999

/-- The top of tenders and arrears in cents (R1, R92). -/
def maxMoney : Nat := 99999999

/-- The last meter row (R145). -/
def lastMeterRow : Nat := 16383

/-- The number of a token kind (R53). -/
def tokenKindNumber : TokenKind → Nat
  | .credit => 0
  | .allowance => 1
  | .keyChangeA => 2
  | .keyChangeB => 3
  | .clearTamper => 4
  | .setLoadLimit => 5
  | .clearCredit => 6

/-- The service kinds of R92. -/
def serviceKind : Nat → Option TokenKind
  | 4 => some .clearTamper
  | 5 => some .setLoadLimit
  | 6 => some .clearCredit
  | _ => none

/-- The top of a service item's amount (R53, R92): 0 for kinds 4 and 6. -/
def serviceAmountMax : TokenKind → Nat
  | .setLoadLimit => 999999
  | _ => 0

/-! ## VEND (R188) -/

/-- One item of 18 bytes, with the ranges of R92. -/
def readItem (bs : List Byte) : Option (Item × List Byte) := do
  let (type, bs) ← readChoice 2 bs
  let (meter, bs) ← readDigits 13 bs
  if type = 0 then
    let (tender, bs) ← readRange 4 0 maxMoney bs
    some (.purchase meter tender, bs)
  else
    let (k, bs) ← readNumber 1 bs
    let kind ← serviceKind k
    let (amount, bs) ← readRange 3 0 (serviceAmountMax kind) bs
    some (.service meter kind amount, bs)

/-- Reads `count` items. -/
def readItems : Nat → List Byte → Option (List Item × List Byte)
  | 0, bs => some ([], bs)
  | count + 1, bs => do
    let (item, bs) ← readItem bs
    let (items, bs) ← readItems count bs
    some (item :: items, bs)

/-- The body of VEND: a count of 1 to 4 and exactly that number of items (R185, R188). -/
def decodeVend (body : List Byte) : Option (List Item) := do
  let (count, bs) ← readRange 1 1 4 body
  let (items, bs) ← readItems count bs
  readEnd items bs

/-- The meter an item names. -/
def Item.meter : Item → MeterNumber
  | .purchase m _ => m
  | .service m _ _ => m

/-- An item is a service item. -/
def Item.isService : Item → Bool
  | .purchase _ _ => false
  | .service _ _ _ => true

/-- The number, from 1, of the first item whose meter fails a test. -/
def firstFailing (test : MeterNumber → Bool) (items : List Item) : Option Nat :=
  (items.findIdx? fun i => !test i.meter).map (· + 1)

/-! ## Bodies without a layout of their own (R185) -/

/-- An empty body. -/
def decodeEmpty (body : List Byte) : Option Unit :=
  readEnd () body

/-- A body of one meter number: LOOKUP, REPRINT, RETIRE, REINSTATE, PURGE. -/
def decodeMeter (body : List Byte) : Option MeterNumber := do
  let (m, bs) ← readDigits 13 body
  readEnd m bs

/-- QUOTE: a meter number and a tender (R50). -/
def decodeQuote (body : List Byte) : Option (MeterNumber × Nat) := do
  let (m, bs) ← readDigits 13 body
  let (tender, bs) ← readRange 4 0 maxMoney bs
  readEnd (m, tender) bs

/-- RESUME: a code of four digits (R84). -/
def decodeCode (body : List Byte) : Option Nat := do
  let (code, bs) ← readDigits 4 body
  readEnd code bs

/-- The lane number a value spells, if it is 0 to 7. -/
def laneOf (n : Nat) : Option LaneId :=
  if h : n < 8 then some ⟨n, h⟩ else none

/-- A body of one lane number, 0 to 7: CLOSE_LANE and CLEAR_LANE_COUNT (R83, R91). -/
def decodeLane (body : List Byte) : Option LaneId := do
  let (n, bs) ← readNumber 1 body
  let lane ← laneOf n
  readEnd lane bs

/-- LANE_STATUS: an optional lane number (R101). -/
def decodeLaneStatus (body : List Byte) : Option (Option LaneId) := do
  let (n, bs) ← readOptional 1 0 7 body
  match n with
  | none => readEnd none bs
  | some n => readEnd (laneOf n) bs

/-- OPEN_LANE: a lane, an operator id of 1 to 9,999 and a code of four digits (R81, R82). -/
def decodeOpenLane (body : List Byte) : Option (LaneId × Nat × Nat) := do
  let (n, bs) ← readNumber 1 body
  let lane ← laneOf n
  let (id, bs) ← readRange 2 1 9999 bs
  let (code, bs) ← readDigits 4 bs
  readEnd (lane, id, code) bs

/-- A yes-or-no choice whose rule lists yes first: yes is 0, no is 1 (R75, R185; log entry 17). -/
def readYesFirst (bs : List Byte) : Option (Bool × List Byte) :=
  match readChoice 2 bs with
  | some (n, rest) => some (n == 0, rest)
  | none => none

/-- The filter mode a choice byte names, in the order of R76. -/
def filterModeOf : Nat → FilterMode
  | 0 => .wide
  | 1 => .pair
  | 2 => .quad
  | _ => .closed

/-- Reads `count` code digits, each 0 to 9. -/
def readCodeDigits : Nat → List Byte → Option (List Nat × List Byte)
  | 0, bs => some ([], bs)
  | count + 1, bs => do
    let (d, bs) ← readDigits 1 bs
    let (ds, bs) ← readCodeDigits count bs
    some (d :: ds, bs)

/-- Reads `count` members of a set or marks, each 0 or 1. -/
def readFlags : Nat → List Byte → Option (List Bool × List Byte)
  | 0, bs => some ([], bs)
  | count + 1, bs => do
    let (f, bs) ← readFlag bs
    let (fs, bs) ← readFlags count bs
    some (f :: fs, bs)

/-- SET_LANE (R78): a lane and its settings, and whether the engine mask names an engine. The mask in the settings
is the one the request names. A care mark is 1 for a cared digit and 0 for one not cared (DESIGN CHOICE, log entry 39). -/
def decodeSetLane (body : List Byte) : Option (LaneId × LaneSettings × Bool) := do
  let (n, bs) ← readNumber 1 body
  let lane ← laneOf n
  let (priority, bs) ← readRange 1 0 3 bs
  let (maskA, bs) ← readFlag bs
  let (maskB, bs) ← readFlag bs
  let (battery, bs) ← readYesFirst bs
  let (mode, bs) ← readChoice 4 bs
  let (digits, bs) ← readCodeDigits 8 bs
  let (cares, bs) ← readFlags 8 bs
  let code : Vector CodeDigit 8 := Vector.ofFn fun i => ⟨digits.getD i 0, cares.getD i false⟩
  readEnd (lane, ⟨Fin.ofNat 4 priority, maskA, maskB, battery, filterModeOf mode, code⟩, maskA || maskB) bs

/-- PURGE_ROW: a meter row number (R23). -/
def decodePurgeRow (body : List Byte) : Option Nat := do
  let (row, bs) ← readRange 2 0 lastMeterRow body
  readEnd row bs

/-- READ_TARIFF: a bank (true for PENDING) and a class of 1 to 15 (R36). -/
def decodeReadTariff (body : List Byte) : Option (Bool × Nat) := do
  let (bank, bs) ← readChoice 2 body
  let (cls, bs) ← readRange 1 1 15 bs
  readEnd (bank == 1, cls) bs

/-- The slot a value names, if it is 0 to 3. -/
def slotOf (n : Nat) : Option SlotId :=
  if h : n < 4 then some ⟨n, h⟩ else none

/-- LOAD_KEY (R68): slot, generation, a wrapped key of 32 bytes and an authentication value of 8. -/
def decodeLoadKey (body : List Byte) : Option LoadKeyFields := do
  let (n, bs) ← readNumber 1 body
  let slot ← slotOf n
  let (generation, bs) ← readRange 1 1 255 bs
  let (wrapped, bs) ← readNumber 32 bs
  let (auth, bs) ← readNumber 8 bs
  readEnd ⟨slot, generation, BitVec.ofNat 256 wrapped, BitVec.ofNat 64 auth⟩ bs

/-- The bytes a key load's authentication is computed over: office id, generation and wrapped key (R68). -/
def loadKeyMessage (officeId : Nat) (f : LoadKeyFields) : List Byte :=
  natToBytes 4 officeId ++ natToBytes 1 f.generation ++ natToBytes 32 f.wrapped.toNat

/-- DROP_KEY: a slot (R70). -/
def decodeDropKey (body : List Byte) : Option SlotId := do
  let (n, bs) ← readNumber 1 body
  let slot ← slotOf n
  readEnd slot bs

/-- SET_MEMORY_ALARM: an exponent of one byte and a count of three (R154). -/
def decodeSetMemoryAlarm (body : List Byte) : Option (Nat × Nat) := do
  let (exponent, bs) ← readNumber 1 body
  let (count, bs) ← readNumber 3 bs
  readEnd (exponent, count) bs

/-- A mask, or a set of flags and conditions, from its seven members in the order of R178 and R179. -/
def maskOf (fs : List Bool) : AttentionMask :=
  ⟨fs.getD 0 false, fs.getD 1 false, fs.getD 2 false, fs.getD 3 false, fs.getD 4 false, fs.getD 5 false, fs.getD 6 false⟩

/-- CLEAR_EVENTS: a set of the five flags and two conditions (R180). -/
def decodeClearEvents (body : List Byte) : Option AttentionMask := do
  let (fs, bs) ← readFlags 7 body
  readEnd (maskOf fs) bs

/-- SET_OFFICE: a whole set of settings, each in the range of R182. -/
def decodeSetOffice (body : List Byte) : Option OfficeSettings := do
  let (idle, bs) ← readRange 2 60 3600 body
  let (dayLimit, bs) ← readRange 1 1 72 bs
  let (low, bs) ← readRange 5 0 1000000000000 bs
  let (fs, bs) ← readFlags 7 bs
  let (code, bs) ← readDigits 4 bs
  let (office, bs) ← readRange 4 1 4294967295 bs
  readEnd ⟨idle, dayLimit, low, maskOf fs, code, office⟩ bs

/-! ## Records (R189) -/

/-- ENROL: 24 bytes with the ranges of R17; a rate above 50 is held at 50 (R14). -/
def decodeEnrol (body : List Byte) : Option EnrolFields := do
  let (meter, bs) ← readDigits 13 body
  let (cls, bs) ← readRange 1 1 15 bs
  let (generation, bs) ← readRange 1 1 255 bs
  let (arrears, bs) ← readRange 4 0 maxMoney bs
  let (rate, bs) ← readNumber 1 bs
  let (floor, bs) ← readRange 4 0 maxSequence bs
  readEnd ⟨meter, cls, generation, arrears, min rate 50, floor⟩ bs

/-- The status a choice byte names (R189). -/
def statusOf : Nat → Status
  | 0 => .active
  | 1 => .suspended
  | _ => .retired

/-- The three refusals of R18: no field named, a pending generation together with its removal, status RETIRED. -/
def amendAllowed (f : AmendFields) : Bool :=
  (f.tariffClass.isSome || f.arrears.isSome || f.recoveryRate.isSome || f.status.isSome
    || f.pendingGeneration.isSome || f.removePending)
  && !(f.pendingGeneration.isSome && f.removePending)
  && f.status != some .retired

/-- AMEND: 27 bytes with the ranges and refusals of R18; a rate above 50 is held at 50 (R19). -/
def decodeAmend (body : List Byte) : Option AmendFields := do
  let (meter, bs) ← readDigits 13 body
  let (cls, bs) ← readOptional 1 1 15 bs
  let (arrears, bs) ← readOptional 4 0 maxMoney bs
  let (rate, bs) ← readOptional 1 0 255 bs
  let (status, bs) ← readOptional 1 0 2 bs
  let (pending, bs) ← readOptional 1 1 255 bs
  let (removal, bs) ← readFlag bs
  let f : AmendFields := ⟨meter, cls, arrears, rate.map (min · 50), status.map statusOf, pending, removal⟩
  if amendAllowed f then readEnd f bs else none

/-- The 42-byte record image with the ranges of R1 (R24, R189). It carries no last sale. -/
def readImage (bs : List Byte) : Option (MeterRecord × List Byte) := do
  let (meter, bs) ← readDigits 13 bs
  let (status, bs) ← readChoice 3 bs
  let (cls, bs) ← readRange 1 1 15 bs
  let (generation, bs) ← readRange 1 1 255 bs
  let (pending, bs) ← readOptional 1 1 255 bs
  let (sequence, bs) ← readRange 4 0 maxSequence bs
  let (stamp, bs) ← readNumber 2 bs
  let (energy, bs) ← readRange 4 0 9999999 bs
  let (paid, bs) ← readRange 4 0 99999 bs
  let (issued, bs) ← readFlag bs
  let (arrears, bs) ← readRange 4 0 maxMoney bs
  let (rate, bs) ← readNumber 1 bs
  let (carry, bs) ← readRange 4 0 99999 bs
  some (⟨meter, statusOf status, cls, generation, pending, sequence, stamp, energy, paid, issued, arrears,
    rate, carry, none⟩, bs)

/-- The number of a status (R189). -/
def statusNumber : Status → Nat
  | .active => 0
  | .suspended => 1
  | .retired => 2

/-- An optional number in its place (R184). -/
def optionalBytes (width : Nat) : Option Nat → List Byte
  | none => 0 :: natToBytes width 0
  | some n => 1 :: natToBytes width n

/-- A yes-or-no byte: 0 no, 1 yes. -/
def flagByte (b : Bool) : Byte :=
  if b then 1 else 0

/-- The 42 bytes of a record image (R189). -/
def imageBytes (r : MeterRecord) : List Byte :=
  natToDigits 13 r.meter ++ natToBytes 1 (statusNumber r.status) ++ natToBytes 1 r.tariffClass
    ++ natToBytes 1 r.keyGeneration ++ optionalBytes 1 r.pendingGeneration ++ natToBytes 4 r.sequence
    ++ natToBytes 2 r.monthStamp ++ natToBytes 4 r.monthEnergy ++ natToBytes 4 r.chargePaid
    ++ [flagByte r.allowanceIssued] ++ natToBytes 4 r.arrears ++ natToBytes 1 r.recoveryRate
    ++ natToBytes 4 r.carry

/-- RESTORE: the image, an authentication value over its 42 bytes, and an optional target row (R24, R189). -/
def decodeRestore (body : List Byte) : Option RestoreFields := do
  let (message, _) ← readBytes 42 body
  let (image, bs) ← readImage body
  let (auth, bs) ← readNumber 8 bs
  let (target, bs) ← readOptional 2 0 lastMeterRow bs
  readEnd ⟨image, message, BitVec.ofNat 64 auth, target⟩ bs

/-- The image as R24 adjusts it: the rate held at 50, the stamp held at the current month, and a pending generation
equal to the key generation made absent. -/
def adjustImage (month : Nat) (r : MeterRecord) : MeterRecord :=
  { r with
    recoveryRate := min r.recoveryRate 50
    monthStamp := min r.monthStamp month
    pendingGeneration := if r.pendingGeneration = some r.keyGeneration then none else r.pendingGeneration
    lastSale := none }

/-- GRANT: 20 bytes; the authentication is computed over the first 12 (R129, R189). A grant's office id runs from 1, so an id
of 0 matches no office, a factory office's 0 among them (R182). -/
def decodeGrant (body : List Byte) : Option GrantFields := do
  let (message, _) ← readBytes 12 body
  let (office, bs) ← readRange 4 1 4294967295 body
  let (serial, bs) ← readRange 4 1 4294967295 bs
  let (amount, bs) ← readRange 4 1 100000000 bs
  let (auth, bs) ← readNumber 8 bs
  readEnd ⟨office, serial, amount, message, BitVec.ofNat 64 auth⟩ bs

/-! ## SET_TARIFF (R33, R189) -/

/-- A class entry as its 48 bytes spell it, before the checks of R33. -/
structure ClassEntry where
  tenderMin : Nat
  tenderMax : Nat
  charge : Nat
  allowance : Nat
  blockCount : Nat
  places : List (Nat × Nat)
  deriving DecidableEq, Repr

/-- Reads `count` block places of price and threshold. -/
def readPlaces : Nat → List Byte → Option (List (Nat × Nat) × List Byte)
  | 0, bs => some ([], bs)
  | count + 1, bs => do
    let (price, bs) ← readNumber 4 bs
    let (threshold, bs) ← readNumber 4 bs
    let (places, bs) ← readPlaces count bs
    some ((price, threshold) :: places, bs)

/-- Reads one class entry; an undefined class's other 47 bytes are not read. -/
def readClassEntry (bs : List Byte) : Option (Option ClassEntry × List Byte) := do
  let (isDefined, bs) ← readFlag bs
  if !isDefined then
    let (_, bs) ← readBytes 47 bs
    some (none, bs)
  else
    let (lo, bs) ← readNumber 4 bs
    let (hi, bs) ← readNumber 4 bs
    let (charge, bs) ← readNumber 4 bs
    let (allowance, bs) ← readNumber 2 bs
    let (count, bs) ← readNumber 1 bs
    let (places, bs) ← readPlaces 4 bs
    some (some ⟨lo, hi, charge, allowance, count, places⟩, bs)

/-- Reads `count` class entries. -/
def readClassEntries : Nat → List Byte → Option (List (Option ClassEntry) × List Byte)
  | 0, bs => some ([], bs)
  | count + 1, bs => do
    let (c, bs) ← readClassEntry bs
    let (cs, bs) ← readClassEntries count bs
    some (c :: cs, bs)

/-- The 722 bytes of SET_TARIFF: an effective month and fifteen class entries. -/
def decodeSetTariff (body : List Byte) : Option (Nat × List (Option ClassEntry)) := do
  let (month, bs) ← readNumber 2 body
  let (entries, bs) ← readClassEntries 15 bs
  readEnd (month, entries) bs

/-- Thresholds rise strictly (R30). -/
def strictlyRising : List Nat → Bool
  | a :: b :: rest => a < b && strictlyRising (b :: rest)
  | _ => true

/-- The block checks of R33, with the blocks they give: bounded blocks and the last block's price. -/
def blocksOf (places : List (Nat × Nat)) : Option (List Block × Nat) :=
  match places.reverse with
  | [] => none
  | (price, threshold) :: before =>
    let bounded := before.reverse
    if (places.all fun p => 1 ≤ p.1 ∧ p.1 ≤ 99999) ∧ (bounded.all fun p => 1 ≤ p.2 ∧ p.2 ≤ 9999999)
        ∧ threshold = 0 ∧ strictlyRising (bounded.map (·.2)) then
      some (bounded.map fun p => ⟨p.1, p.2⟩, price)
    else none

/-- The checks of R33 on one defined class. -/
def classOf (c : ClassEntry) : Option TariffClass :=
  if 1 ≤ c.tenderMin ∧ c.tenderMin ≤ 9999999 ∧ c.tenderMin ≤ c.tenderMax ∧ c.tenderMax ≤ 9999999
      ∧ c.charge ≤ 99999 ∧ c.allowance ≤ 1000 ∧ 1 ≤ c.blockCount ∧ c.blockCount ≤ 4 then
    match blocksOf (c.places.take c.blockCount) with
    | some (bounded, last) => some ⟨c.tenderMin, c.tenderMax, c.charge, c.allowance, bounded, last⟩
    | none => none
  else none

/-- The classes of a bank, or the number of the first class, in class order from `k`, that fails R33's check 3. -/
def classesOf : Nat → List (Option ClassEntry) → Except Nat (List (Option TariffClass))
  | _, [] => .ok []
  | k, none :: rest =>
    match classesOf (k + 1) rest with
    | .ok cs => .ok (none :: cs)
    | .error n => .error n
  | k, some c :: rest =>
    match classOf c with
    | none => .error k
    | some t =>
      match classesOf (k + 1) rest with
      | .ok cs => .ok (some t :: cs)
      | .error n => .error n

/-- The checks of R33 in order against the current trading month: the bank, or the class number that a BAD_FIELD
reply carries (0 for a check on the bank as a whole, and for a malformed body). -/
def checkTariff (month : Nat) (body : List Byte) : Except Nat Bank :=
  match decodeSetTariff body with
  | none => .error 0
  | some (effective, entries) =>
    if effective ≤ month then .error 0
    else if entries.all (·.isNone) then .error 0
    else
      match classesOf 1 entries with
      | .error k => .error k
      | .ok cs => .ok ⟨effective, Vector.ofFn fun i => (cs[i.val]?).join⟩

end Sys2Proof.Machine
end

