-- ==== Sys2Proof/Machine/Frame.lean ====
section
/-! DEFINITION. The frames of the request link: the numbering of kinds and codes (R184), the frame layout (R186),
the 16-bit frame check (R187), and the first three checks of R176 on the bytes of a selection. -/

namespace Sys2Proof.Machine

open Sys2Proof

/-- The kinds in catalogue order; kind number k stands at place k - 1 (R184). -/
def allKinds : List Kind :=
  [.vend, .cancel, .collect, .resume, .laneStatus, .lookup, .reprint, .quote, .openLane, .closeLane, .setLane,
   .clearLaneCount, .enrol, .amend, .retire, .reinstate, .purge, .purgeRow, .restore, .setTariff,
   .clearPendingTariff, .readTariff, .loadKey, .dropKey, .readKeys, .enableEngineB, .grant, .closeDay, .closeMonth,
   .setMemoryAlarm, .clearEvents, .readStatus, .setOffice]

/-- The number of a kind, 1 to 33 (R184). -/
def Kind.number (k : Kind) : Nat :=
  allKinds.findIdx (· == k) + 1

/-- The kind that a kind byte names, if the catalogue has it. -/
def kindOf (b : Byte) : Option Kind :=
  if b.toNat = 0 then none else allKinds[b.toNat - 1]?

/-- A kind is a counter request, or else a supervisor request (R177). -/
def Kind.isCounter : Kind → Bool
  | .vend | .cancel | .collect | .resume | .laneStatus | .lookup | .reprint | .quote => true
  | _ => false

/-- The result codes in table order; code number n stands at place n (R184). -/
def allCodes : List ResultCode :=
  [.done, .accepted, .cancelled, .badFrame, .badLane, .unknownRequest, .starting, .fault, .notSupervisor, .badField,
   .laneState, .laneBusy, .badOperator, .queueFull, .duplicateTag, .badMeterNumber, .outsideZone, .dayOverdue,
   .supply, .noMeter, .meterBusy, .meterState, .damaged, .duplicateMeter, .tableFull, .badAuth, .staleGrant,
   .duplicateKey, .keyInUse, .noResult, .notFound, .tooLate, .dayLimit, .monthLimit]

/-- The number of a result code, 0 to 33 (R184). -/
def ResultCode.number (c : ResultCode) : Nat :=
  allCodes.findIdx (· == c)

/-! ## The frame check (R187) -/

/-- One bit fed to the remainder register: shift, compare the bit shifted out with the bit fed, and combine the
generator when they differ. -/
def crcBit (r : BitVec 16) (fed : Bool) : BitVec 16 :=
  if r.msb == fed then r <<< 1 else (r <<< 1) ^^^ 32773#16

/-- One byte fed most significant bit first. -/
def crcByte (r : BitVec 16) (b : Byte) : BitVec 16 :=
  [b.getLsbD 7, b.getLsbD 6, b.getLsbD 5, b.getLsbD 4, b.getLsbD 3, b.getLsbD 2, b.getLsbD 1, b.getLsbD 0].foldl crcBit r

/-- The register after a run of bytes, begun at all ones. -/
def frameCheck (bs : List Byte) : BitVec 16 :=
  bs.foldl crcByte 65535#16

/-- A check sent most significant byte first. -/
def checkBytes (c : BitVec 16) : List Byte :=
  [c.extractLsb' 8 8, c.extractLsb' 0 8]

/-! ## Frames (R186) -/

/-- The start byte. -/
def startByte : Byte := 165

/-- The bytes of a frame around its content (lane to the last byte of the body). -/
def frameBytes (content : List Byte) : List Byte :=
  let checked := natToBytes 2 content.length ++ content
  startByte :: checked ++ checkBytes (frameCheck checked)

/-- A request frame. -/
def requestFrame (lane : LaneId) (k : Kind) (tag : Tag) (body : List Byte) : List Byte :=
  frameBytes (BitVec.ofNat 8 lane.val :: BitVec.ofNat 8 k.number :: natToBytes 2 tag.toNat ++ body)

/-- What a selection carries, by checks 1 to 3 of R176. -/
inductive Selection where
  /-- no start byte: the selection carries no frame (R174) -/
  | noFrame
  /-- check 1 fails -/
  | badFrame
  /-- check 2 fails -/
  | badLane (header : Header)
  /-- check 3 fails -/
  | unknownRequest (lane : LaneId) (header : Header)
  | request (lane : LaneId) (kind : Kind) (tag : Tag) (body : List Byte)
  deriving DecidableEq, Repr

/-- The header and body of a frame that has passed check 1, from the bytes after its length field. -/
def selectionOf : List Byte → Selection
  | lane :: kind :: t1 :: t0 :: body =>
    let header : Header := ⟨lane, kind, BitVec.ofNat 16 (bytesToNat [t1, t0])⟩
    match laneOf lane.toNat with
    | none => .badLane header
    | some l =>
      match kindOf kind with
      | none => .unknownRequest l header
      | some k => .request l k header.tag body
  | _ => .badFrame

/-- The frame of a selection: the bytes from its first start byte on (R174). -/
def frameOf (bytes : List Byte) : List Byte :=
  bytes.dropWhile (· != startByte)

/-- Check 1 of R176 on a frame: its length field lies from 4 to 1,024, the selection delivered exactly L + 5 bytes,
and the check verifies (R186, R187). -/
def frameVerifies (frame : List Byte) : Bool :=
  let length := bytesToNat ((frame.drop 1).take 2)
  3 ≤ frame.length && 4 ≤ length && length ≤ 1024 && frame.length == length + 5 && frameCheck (frame.drop 1) == 0

/-- The first three checks of R176 on the bytes of a selection. -/
def classify (bytes : List Byte) : Selection :=
  match frameOf bytes with
  | [] => .noFrame
  | start :: rest =>
    if frameVerifies (start :: rest) then selectionOf ((rest.drop 2).take (rest.length - 4)) else .badFrame

/-- The selection carries a frame at all (R174). -/
def carriesFrame (bytes : List Byte) : Bool :=
  bytes.contains startByte

end Sys2Proof.Machine
end

