-- ==== Sys2Proof/Decode.lean ====
section
/-! DEFINITION. From words and bytes to commands. The opcode table gives no row any bits, so no word spells a command and
`decodeTableWord` answers none. What the spec does lay out is the request frame (R184, R186, R187): the command a
selection's bytes spell, and the bytes of a request command. -/

namespace Sys2Proof

open Sys2Proof.Machine

/-- The command that a word spells by the opcode table's bits. The table gives bits to no row. -/
def decodeTableWord (_nbits _w : Nat) : Option Instr :=
  none

/-- The command of a request kind (R177). -/
def commandOf (k : Kind) (lane : LaneId) (tag : Tag) (body : List Byte) : Instr :=
  match k with
  | .vend => .vend lane tag body
  | .cancel => .cancel lane tag body
  | .collect => .collect lane tag body
  | .resume => .resume lane tag body
  | .laneStatus => .laneStatus lane tag body
  | .lookup => .lookup lane tag body
  | .reprint => .reprint lane tag body
  | .quote => .quote lane tag body
  | .openLane => .openLane lane tag body
  | .closeLane => .closeLane lane tag body
  | .setLane => .setLane lane tag body
  | .clearLaneCount => .clearLaneCount lane tag body
  | .enrol => .enrol lane tag body
  | .amend => .amend lane tag body
  | .retire => .retire lane tag body
  | .reinstate => .reinstate lane tag body
  | .purge => .purge lane tag body
  | .purgeRow => .purgeRow lane tag body
  | .restore => .restore lane tag body
  | .setTariff => .setTariff lane tag body
  | .clearPendingTariff => .clearPendingTariff lane tag body
  | .readTariff => .readTariff lane tag body
  | .loadKey => .loadKey lane tag body
  | .dropKey => .dropKey lane tag body
  | .readKeys => .readKeys lane tag body
  | .enableEngineB => .enableEngineB lane tag body
  | .grant => .grant lane tag body
  | .closeDay => .closeDay lane tag body
  | .closeMonth => .closeMonth lane tag body
  | .setMemoryAlarm => .setMemoryAlarm lane tag body
  | .clearEvents => .clearEvents lane tag body
  | .readStatus => .readStatus lane tag body
  | .setOffice => .setOffice lane tag body

/-- The kind, lane, tag and body of a request command; none for the commands that are no request. -/
def requestParts (i : Instr) : Option (Kind × LaneId × Tag × List Byte) :=
  match i with
  | .vend lane tag body => some (.vend, lane, tag, body)
  | .cancel lane tag body => some (.cancel, lane, tag, body)
  | .collect lane tag body => some (.collect, lane, tag, body)
  | .resume lane tag body => some (.resume, lane, tag, body)
  | .laneStatus lane tag body => some (.laneStatus, lane, tag, body)
  | .lookup lane tag body => some (.lookup, lane, tag, body)
  | .reprint lane tag body => some (.reprint, lane, tag, body)
  | .quote lane tag body => some (.quote, lane, tag, body)
  | .openLane lane tag body => some (.openLane, lane, tag, body)
  | .closeLane lane tag body => some (.closeLane, lane, tag, body)
  | .setLane lane tag body => some (.setLane, lane, tag, body)
  | .clearLaneCount lane tag body => some (.clearLaneCount, lane, tag, body)
  | .enrol lane tag body => some (.enrol, lane, tag, body)
  | .amend lane tag body => some (.amend, lane, tag, body)
  | .retire lane tag body => some (.retire, lane, tag, body)
  | .reinstate lane tag body => some (.reinstate, lane, tag, body)
  | .purge lane tag body => some (.purge, lane, tag, body)
  | .purgeRow lane tag body => some (.purgeRow, lane, tag, body)
  | .restore lane tag body => some (.restore, lane, tag, body)
  | .setTariff lane tag body => some (.setTariff, lane, tag, body)
  | .clearPendingTariff lane tag body => some (.clearPendingTariff, lane, tag, body)
  | .readTariff lane tag body => some (.readTariff, lane, tag, body)
  | .loadKey lane tag body => some (.loadKey, lane, tag, body)
  | .dropKey lane tag body => some (.dropKey, lane, tag, body)
  | .readKeys lane tag body => some (.readKeys, lane, tag, body)
  | .enableEngineB lane tag body => some (.enableEngineB, lane, tag, body)
  | .grant lane tag body => some (.grant, lane, tag, body)
  | .closeDay lane tag body => some (.closeDay, lane, tag, body)
  | .closeMonth lane tag body => some (.closeMonth, lane, tag, body)
  | .setMemoryAlarm lane tag body => some (.setMemoryAlarm, lane, tag, body)
  | .clearEvents lane tag body => some (.clearEvents, lane, tag, body)
  | .readStatus lane tag body => some (.readStatus, lane, tag, body)
  | .setOffice lane tag body => some (.setOffice, lane, tag, body)
  | .badFrame _ => none
  | .frameDiscarded _ => none
  | .replyRead _ => none
  | .tick => none
  | .idleExpiry _ => none
  | .dayAgeMinute => none
  | .mainsOkChange _ => none
  | .pwrWarnChange _ => none
  | .reset _ => none
  | .dispatch => none
  | .claimRetaken => none
  | .waitingSupervisorRetaken => none
  | .itemReadDone _ => none
  | .tokenComputed => none
  | .grantVerified => none
  | .loadKeyVerified => none
  | .restoreVerified => none
  | .commitMarkerWritten => none
  | .commitMeterRowWritten => none
  | .commitOfficeRowWritten => none
  | .commitCleared => none
  | .recordWriteDone _ => none
  | .counterReadDone _ => none
  | .setTariffWriteDone => none
  | .clearTariffWriteDone => none
  | .keyWriteDone => none
  | .dropKeyWriteDone => none
  | .laneSettingsWriteDone => none
  | .grantWriteDone => none
  | .closeDayWriteDone => none
  | .closeMonthWriteDone => none
  | .monthAdvance => none
  | .dayAgeWriteDone => none
  | .setOfficeWriteDone => none
  | .memoryAlarmWriteDone => none
  | .scrubberStep => none
  | .scrubberReadDone _ => none
  | .startupOfficeRowRead _ => none
  | .rollForwardWriteDone => none
  | .scanRowRead _ => none
  | .commitRowRead _ => none
  | .resetAsserted => none

/-- The bytes of a request command's frame (R186); none for the commands that are no request. -/
def encodeRequest (i : Instr) : Option (List Byte) :=
  match requestParts i with
  | some (k, lane, tag, body) => some (requestFrame lane k tag body)
  | none => none

/-- The command that a selection in IDLE spells: the request of a frame that passes checks 1 to 3 of R176, else BAD_FRAME
with the bytes as they came (R174, R176). -/
def decodeSelection (bytes : List Byte) : Instr :=
  match classify bytes with
  | .request lane k tag body => commandOf k lane tag body
  | _ => .badFrame bytes

end Sys2Proof
end

