-- ==== Sys2Proof/Machine/Flags.lean ====
section
/-! DEFINITION. The flags and lines the part computes: the level conditions, ATTN, READY, MEMORY_ALARM, available
authority, the supply state of two input levels, and the named operations that set and clear event flags. -/

namespace Sys2Proof.Machine

open Sys2Proof

/-- RESULT_WAITING is pending while some lane's foreground buffer holds a result (R179). -/
def State.resultWaiting (s : State) : Bool :=
  s.lanes.toList.any (·.foreground.isSome)

/-- MEMORY_ALARM is pending while the error count is at least 2 to the power of the alarm exponent (R153). -/
def State.memoryAlarm (s : State) : Bool :=
  2 ^ s.store.alarmExponent ≤ s.store.errorCount

/-- ATTN is high while an enabled flag is set or an enabled condition is pending (R179). -/
def State.attn (s : State) : Bool :=
  (s.settings.mask.authorityLow && s.events.authorityLow)
  || (s.settings.mask.laneBarred && s.events.laneBarred)
  || (s.settings.mask.dayOverdue && s.events.dayOverdue)
  || (s.settings.mask.rowDamaged && s.events.rowDamaged)
  || (s.settings.mask.supplyChange && s.events.supplyChange)
  || (s.settings.mask.resultWaiting && s.resultWaiting)
  || (s.settings.mask.memoryAlarm && s.memoryAlarm)

/-- READY is high while a reply is available to be read (R174). -/
def State.readyLine (s : State) : Bool :=
  match s.exchange with
  | .replyReady _ => true
  | _ => false

/-- Available authority: granted less spent less reserved (R127). -/
def Authority.available (a : Authority) : Nat :=
  a.granted - a.spent - a.reserved

/-- The supply state of the two input levels (R162). -/
def supplyOf (mainsOk pwrWarn : Bool) : Supply :=
  if pwrWarn then .holding else if mainsOk then .mains else .battery

/-- Sets AUTHORITY_LOW (R133, R178). -/
def State.raiseAuthorityLow (s : State) : State :=
  { s with events := { s.events with authorityLow := true } }

/-- Sets LANE_BARRED (R89, R178). -/
def State.raiseLaneBarred (s : State) : State :=
  { s with events := { s.events with laneBarred := true } }

/-- Sets DAY_OVERDUE (R142, R144, R178). -/
def State.raiseDayOverdue (s : State) : State :=
  { s with events := { s.events with dayOverdue := true } }

/-- Sets ROW_DAMAGED (R150, R151, R178). -/
def State.raiseRowDamaged (s : State) : State :=
  { s with events := { s.events with rowDamaged := true } }

/-- Sets SUPPLY_CHANGE (R163, R178). -/
def State.raiseSupplyChange (s : State) : State :=
  { s with events := { s.events with supplyChange := true } }

/-- Clears the flags a set names; the two level conditions of the set have no effect (R180). -/
def EventFlags.clear (f : EventFlags) (named : AttentionMask) : EventFlags :=
  { authorityLow := f.authorityLow && !named.authorityLow
    laneBarred := f.laneBarred && !named.laneBarred
    dayOverdue := f.dayOverdue && !named.dayOverdue
    rowDamaged := f.rowDamaged && !named.rowDamaged
    supplyChange := f.supplyChange && !named.supplyChange }

/-- The low-mark rule R133: AUTHORITY_LOW is set when "available is below the low mark" did not hold before and
holds now. -/
def State.noteAuthority (before s : State) : State :=
  if ¬ before.authority.available < before.settings.lowMark ∧ s.authority.available < s.settings.lowMark then
    s.raiseAuthorityLow
  else s

end Sys2Proof.Machine
end

