-- ==== Sys2Proof/Machine/Replies.lean ====
section
/-! DEFINITION. The bytes of replies: the layouts of R188 and R189, the rule of R185 for replies without a layout of
their own, the 24 digits of a token (R63), and the reply frame of R186. Log entry 17 gathers the choices R185 leaves. -/

namespace Sys2Proof.Machine

open Sys2Proof

/-- The 24 decimal digits of an enciphered value, with leading zeros (R63, R190). -/
def tokenDigits (v : BitVec 79) : List Byte :=
  natToDigits 24 v.toNat

/-- A token in 34 bytes (R188). -/
def tokenBytes (t : Token) : List Byte :=
  natToBytes 1 (tokenKindNumber t.kind) ++ natToBytes 4 t.sequence ++ natToBytes 1 t.generation
    ++ natToBytes 4 t.amount ++ tokenDigits t.value

/-- The number of a refusal code, 1 to 12 (R184). -/
def refusalNumber : RefusalCode → Nat
  | .noMeter => 1
  | .damaged => 2
  | .meterState => 3
  | .dayOverdue => 4
  | .classUndefined => 5
  | .limitLow => 6
  | .limitHigh => 7
  | .keyUnavailable => 8
  | .amountOverflow => 9
  | .sequenceExhausted => 10
  | .noAuthority => 11
  | .nothingDue => 12

/-- The number of a skip cause (R184). -/
def skipNumber : SkipCause → Nat
  | .priorRefusal => 1
  | .supply => 2

/-- One outcome of a result, for the item of the given number (R188). -/
def outcomeBytes (number : Nat) : ItemOutcome → List Byte
  | .refused code => natToBytes 1 number ++ natToBytes 1 1 ++ natToBytes 1 (refusalNumber code)
  | .skipped cause => natToBytes 1 number ++ natToBytes 1 2 ++ natToBytes 1 (skipNumber cause)
  | .done d =>
    natToBytes 1 number ++ natToBytes 1 0 ++ natToBytes 1 0 ++ natToBytes 1 d.tokens.length
      ++ natToBytes 4 d.tender ++ natToBytes 4 d.recovered ++ natToBytes 4 d.collected
      ++ natToBytes 6 d.energyCost ++ natToBytes 4 d.carry ++ natToBytes 4 d.bought
      ++ natToBytes 1 d.blockReached ++ natToBytes 4 d.arrearsRemaining ++ [flagByte d.arrearsCleared]
      ++ d.tokens.flatMap tokenBytes

/-- The outcomes of a result from the item of the given number on. -/
def outcomesBytes : Nat → List ItemOutcome → List Byte
  | _, [] => []
  | number, o :: rest => outcomeBytes number o ++ outcomesBytes (number + 1) rest

/-- A list of varying length behind its one-byte count (R185). -/
def countedBytes {α : Type} (f : α → List Byte) (xs : List α) : List Byte :=
  natToBytes 1 xs.length ++ xs.flatMap f

/-- A yes-or-no choice whose rule lists yes first (R185; log entry 17). -/
def yesFirstByte (b : Bool) : Byte :=
  if b then 0 else 1

/-- A mask or a set in the order of R178 and R179. -/
def maskBytes (m : AttentionMask) : List Byte :=
  [flagByte m.authorityLow, flagByte m.laneBarred, flagByte m.dayOverdue, flagByte m.rowDamaged,
   flagByte m.supplyChange, flagByte m.resultWaiting, flagByte m.memoryAlarm]

/-- The five flags in the order of R178, coded as a set: 1 for a flag that is set (DESIGN CHOICE, log entry 40). -/
def flagBytes (f : EventFlags) : List Byte :=
  [flagByte f.authorityLow, flagByte f.laneBarred, flagByte f.dayOverdue, flagByte f.rowDamaged,
   flagByte f.supplyChange]

/-- The number of a filter mode, in the order of R76. -/
def filterModeNumber : FilterMode → Nat
  | .wide => 0
  | .pair => 1
  | .quad => 2
  | .closed => 3

/-- A lane's persistent settings in the order of R78. A care mark is 1 for a cared digit and 0 for one not cared (DESIGN CHOICE,
log entry 39). -/
def laneSettingsBytes (st : LaneSettings) : List Byte :=
  natToBytes 1 st.priority.val ++ [flagByte st.maskA, flagByte st.maskB, yesFirstByte st.batteryService]
    ++ natToBytes 1 (filterModeNumber st.mode) ++ st.code.toList.map (fun c => BitVec.ofNat 8 c.value)
    ++ st.code.toList.map (fun c => flagByte c.cared)

/-- A shift tally in the order of R74. -/
def shiftTallyBytes (t : ShiftTally) : List Byte :=
  natToBytes 5 t.money ++ natToBytes 4 t.purchases ++ natToBytes 4 t.tokens ++ natToBytes 4 t.refused

/-- The number of a lane state, in the order of R74. -/
def laneStateNumber : LaneState → Nat
  | .closed => 0
  | .opened => 1
  | .restricted => 2
  | .barred => 3

/-- The number of an engine. -/
def engineNumber : EngineId → Nat
  | .a => 0
  | .b => 1

/-- The body of a LANE_STATUS reply (R101). Whether replies carry the warning mark is 1 for yes and 0 for no (DESIGN CHOICE, log
entry 39). -/
def laneReportBytes (r : LaneReport) : List Byte :=
  natToBytes 1 r.lane.val ++ natToBytes 1 (laneStateNumber r.state) ++ [yesFirstByte r.locked]
    ++ optionalBytes 2 r.operatorId ++ natToBytes 1 r.count ++ [flagByte r.warning] ++ natToBytes 2 r.idle
    ++ countedBytes (fun t => natToBytes 2 t.toNat) r.queue
    ++ countedBytes (fun p => natToBytes 2 p.1.toNat ++ natToBytes 1 (engineNumber p.2)) r.inFlight
    ++ optionalBytes 2 (r.foreground.map BitVec.toNat) ++ optionalBytes 2 (r.background.map BitVec.toNat)
    ++ shiftTallyBytes r.tally ++ laneSettingsBytes r.settings

/-- The body of a LOOKUP reply (R189). -/
def lookupBytes (r : LookupReport) : List Byte :=
  natToBytes 2 r.row ++ imageBytes r.image
    ++ (match r.image.lastSale with
        | none => flagByte false :: natToBytes 16 0
        | some g =>
          flagByte true :: (natToBytes 4 g.tender ++ natToBytes 4 g.paidEnergy
            ++ natToBytes 4 ((g.tokens.head?.map (·.sequence)).getD 0)
            ++ natToBytes 4 ((g.tokens.getLast?.map (·.sequence)).getD 0)))
    ++ natToBytes 1 r.hit

/-- The body of a REPRINT reply (R188). -/
def saleBytes (g : SaleGroup) : List Byte :=
  natToBytes 4 g.tender ++ natToBytes 4 g.paidEnergy ++ countedBytes tokenBytes g.tokens

/-- The values of R39 in the order of its table: no layout gives a QUOTE reply, so the numbers take the fewest bytes and the
two yes-or-no values are 0 for yes, as R39 lists them (R185; log entry 37). -/
def calculationBytes (c : Calculation) : List Byte :=
  natToBytes 4 c.recovered ++ natToBytes 4 c.arrears ++ [yesFirstByte c.arrearsCleared] ++ natToBytes 3 c.collected
    ++ natToBytes 3 c.chargePaid ++ natToBytes 3 c.bought ++ natToBytes 3 c.monthEnergy
    ++ natToBytes 1 c.blockReached ++ natToBytes 6 c.energyCost ++ natToBytes 3 c.carry
    ++ optionalBytes 2 c.allowance ++ [yesFirstByte c.allowanceIssued]

/-- The body of a QUOTE reply (R51). -/
def quoteBytes : QuoteOutcome → List Byte
  | .pass values kinds first =>
    natToBytes 1 0 ++ calculationBytes values
      ++ countedBytes (fun k => natToBytes 1 (tokenKindNumber k)) kinds ++ natToBytes 4 first
  | .classUndefined => natToBytes 1 1
  | .limitLow lo hi => natToBytes 1 2 ++ natToBytes 3 lo ++ natToBytes 3 hi
  | .limitHigh lo hi => natToBytes 1 3 ++ natToBytes 3 lo ++ natToBytes 3 hi
  | .amountOverflow => natToBytes 1 4
  | .nothingDue => natToBytes 1 5
  | .sequenceExhausted => natToBytes 1 6

/-- The blocks of a class (R30): each its price and its threshold, which the last block does not have. -/
def TariffClass.blocks (c : TariffClass) : List (Nat × Option Nat) :=
  c.bounded.map (fun b => (b.price, some b.threshold)) ++ [(c.lastPrice, none)]

/-- A class as an optional part of a reply: the content of R30 in its order, each number in the fewest bytes and the blocks a
counted list (R185). The threshold is an optional field of its block, and the list of an undefined class is empty (DESIGN
CHOICE, log entry 38). -/
def classBytes : Option TariffClass → List Byte
  | none => flagByte false :: natToBytes 12 0
  | some c =>
    flagByte true :: (natToBytes 3 c.tenderMin ++ natToBytes 3 c.tenderMax ++ natToBytes 3 c.charge
      ++ natToBytes 2 c.allowance ++ countedBytes (fun b => natToBytes 3 b.1 ++ optionalBytes 3 b.2) c.blocks)

/-- The body of a READ_TARIFF reply (R36). Each effective month is an optional field with a presence byte: the active bank's for
the mark that none has been made active, the pending bank's beside its EMPTY or LOADED byte (DESIGN CHOICE, log entry 38). -/
def tariffReportBytes (r : TariffReport) : List Byte :=
  optionalBytes 2 r.activeMonth ++ [flagByte r.pendingMonth.isSome] ++ optionalBytes 2 r.pendingMonth
    ++ classBytes r.tariffClass

/-- One slot of a READ_KEYS reply (R71). -/
def keySlotBytes (p : Option Nat × Nat) : List Byte :=
  flagByte p.1.isSome :: (optionalBytes 1 p.1 ++ natToBytes 1 p.2)

/-- The day tally in the order of R134. -/
def dayTallyBytes (t : DayTally) : List Byte :=
  natToBytes 5 t.money ++ natToBytes 5 t.arrears ++ natToBytes 5 t.charge ++ natToBytes 7 t.energyCost
    ++ natToBytes 4 t.paidEnergy ++ natToBytes 4 t.allowanceEnergy ++ natToBytes 4 t.purchases
    ++ natToBytes 4 t.services ++ natToBytes 4 t.tokens

/-- The office settings without the supervisor code, in the order of R182. -/
def settingsBytes (st : OfficeSettings) : List Byte :=
  natToBytes 2 st.idleLimit ++ natToBytes 1 st.dayLimit ++ natToBytes 5 st.lowMark ++ maskBytes st.mask
    ++ natToBytes 4 st.officeId

/-- The kind of a row, in the order of R145, and its number. The office row and the lane-settings row, which R145 does not
number, have the number 0, and the commit rows of engines A and B 0 and 1 (DESIGN CHOICE, log entry 41). -/
def rowIdNumbers : RowId → Nat × Nat
  | .meter n => (0, n)
  | .office => (1, 0)
  | .tariff i => (2, i.val)
  | .key i => (3, i.val)
  | .laneSettings => (4, 0)
  | .commit e => (5, engineNumber e)

/-- The fault record in its place (R172): one presence byte for its three fields together (DESIGN CHOICE, log entry 41). -/
def faultBytes : Option FaultRecord → List Byte
  | none => 0 :: natToBytes 4 0
  | some f =>
    1 :: (natToBytes 1 (rowIdNumbers f.row).1 ++ natToBytes 2 (rowIdNumbers f.row).2 ++ [flagByte f.byScrubber])

/-- The number of a stage, in the order of R102. -/
def stageNumber : Stage → Nat
  | .claim => 0
  | .read => 1
  | .check => 2
  | .reserve => 3
  | .tokens => 4
  | .commit => 5
  | .close => 6

/-- An engine in a READ_STATUS reply (R102, R181): its state, then one presence byte for lane, tag, item number and stage
together, which are 0 when it is not BUSY (DESIGN CHOICE, log entry 41). -/
def engineReportBytes : EngineReport → List Byte
  | .disabled => natToBytes 1 0 ++ natToBytes 6 0
  | .idle => natToBytes 1 1 ++ natToBytes 6 0
  | .parked => natToBytes 1 2 ++ natToBytes 6 0
  | .busy lane tag item stage =>
    natToBytes 1 3 ++ 1 :: (natToBytes 1 lane.val ++ natToBytes 2 tag.toNat ++ natToBytes 1 item
      ++ natToBytes 1 (stageNumber stage))

/-- The number of an office state, in the order of R166. -/
def officeStateNumber : OfficeState → Nat
  | .starting => 0
  | .ready => 1
  | .fault => 2

/-- The number of a supply state, in the order of R162. -/
def supplyNumber : Supply → Nat
  | .mains => 0
  | .battery => 1
  | .holding => 2

/-- The body of a READ_STATUS reply (R181). Flags, conditions, the overdue flag and the overflow mark are 1 when set or pending
(DESIGN CHOICE, log entry 40). -/
def statusBytes (r : StatusReport) : List Byte :=
  natToBytes 1 (officeStateNumber r.office) ++ optionalBytes 1 r.startupStep ++ optionalBytes 2 r.nextRow
    ++ faultBytes r.fault ++ natToBytes 1 (supplyNumber r.supply) ++ flagBytes r.events
    ++ [flagByte r.resultWaiting, flagByte r.memoryAlarm] ++ maskBytes r.settings.mask
    ++ natToBytes 5 r.available ++ natToBytes 5 r.reserved ++ natToBytes 5 r.granted ++ natToBytes 5 r.spent
    ++ natToBytes 4 r.lastSerial ++ natToBytes 2 r.day ++ natToBytes 2 r.month ++ natToBytes 2 r.dayAge
    ++ [flagByte r.overdue] ++ engineReportBytes r.engines.a ++ engineReportBytes r.engines.b
    ++ natToBytes 3 r.errorCount ++ natToBytes 1 r.alarmExponent ++ natToBytes 2 r.damagedRows
    ++ countedBytes (natToBytes 2) r.orphans ++ [flagByte r.overflow] ++ natToBytes 4 r.passes
    ++ settingsBytes r.settings

/-- The bytes of a reply body. The dropped generation of a DROP_KEY reply is an optional field, absent when no key was dropped
(R70; DESIGN CHOICE, log entry 42), and the flags and conditions of a CLEAR_EVENTS reply are 1 when set or pending (log
entry 40). -/
def bodyBytes : ReplyBody → List Byte
  | .empty => []
  | .queued n => natToBytes 1 n
  | .failingItem n => natToBytes 1 n
  | .result outcomes => natToBytes 1 outcomes.length ++ outcomesBytes 1 outcomes
  | .lane r => laneReportBytes r
  | .shiftTally t => shiftTallyBytes t
  | .laneSettings st => laneSettingsBytes st
  | .priorState st => natToBytes 1 (laneStateNumber st)
  | .row n => natToBytes 2 n
  | .sequence n => natToBytes 4 n
  | .rowAndSequence n q => natToBytes 2 n ++ natToBytes 4 q
  | .record r => lookupBytes r
  | .sale g => saleBytes g
  | .quote o => quoteBytes o
  | .failingClass n => natToBytes 1 n
  | .bankCleared b => [yesFirstByte b]
  | .tariff r => tariffReportBytes r
  | .keyLoaded slot generation => natToBytes 1 slot.val ++ natToBytes 1 generation
  | .keyDropped generation => optionalBytes 1 generation
  | .keys slots => slots.flatMap keySlotBytes
  | .engineEnabled now => [yesFirstByte now]
  | .granted serial granted available => natToBytes 4 serial ++ natToBytes 5 granted ++ natToBytes 5 available
  | .dayClosed day tally => natToBytes 2 day ++ dayTallyBytes tally
  | .month m => natToBytes 2 m
  | .alarm exponent count => natToBytes 1 exponent ++ natToBytes 3 count
  | .events flags waiting alarm => flagBytes flags ++ [flagByte waiting, flagByte alarm]
  | .status r => statusBytes r
  | .settings st => settingsBytes st

/-- The marks byte of a reply: 0 none, 1 warning, 2 overlap, 3 both (R186). -/
def marksByte (r : Reply) : Byte :=
  BitVec.ofNat 8 ((if r.warning then 1 else 0) + (if r.overlap then 2 else 0))

/-- The bytes of a reply frame with its frame check (R186, R187). -/
def replyFrame (r : Reply) : List Byte :=
  frameBytes (r.header.lane :: r.header.kind :: natToBytes 2 r.header.tag.toNat
    ++ [BitVec.ofNat 8 r.code.number, marksByte r] ++ bodyBytes r.body)

end Sys2Proof.Machine
end

