-- ==== Sys2Proof/Machine/Ops.lean ====
section
/-! DEFINITION. The named operations over record memory, the record store and its lists, the lanes, the meter lock
table, the cipher arbiter and the reply in hand. Every meaning of Machine/<Family>.lean is built from these. -/

namespace Sys2Proof.Machine

open Sys2Proof

/-! ## Sparse tables and rising lists -/

/-- The value a sparse table lists for a key. -/
def sparseFind {α : Type} : Sparse α → Nat → Option α
  | [], _ => none
  | (k, v) :: rest, n => if k = n then some v else sparseFind rest n

/-- The table with a key listed no more. -/
def sparseErase {α : Type} (t : Sparse α) (n : Nat) : Sparse α :=
  t.filter fun e => e.1 ≠ n

/-- The table with a key listed at its place, in rising order. -/
def sparseSet {α : Type} : Sparse α → Nat → α → Sparse α
  | [], n, v => [(n, v)]
  | (k, w) :: rest, n, v =>
    if n < k then (n, v) :: (k, w) :: rest
    else if n = k then (n, v) :: rest
    else (k, w) :: sparseSet rest n v

/-- The keys of a table rise strictly. -/
abbrev sparseRising {α : Type} (t : Sparse α) : Prop :=
  (t.map (·.1)).Pairwise (· < ·)

/-- A number entered in a rising list at its place, once. -/
def insertRising (n : Nat) : List Nat → List Nat
  | [] => [n]
  | k :: rest => if n < k then n :: k :: rest else if n = k then k :: rest else k :: insertRising n rest

/-! ## Words and rows of record memory (R146, R147) -/

/-- The worse of two findings of one word. -/
def worseFinding : Finding → Finding → Finding
  | .uncorrectable, _ => .uncorrectable
  | _, .uncorrectable => .uncorrectable
  | .corrected, _ => .corrected
  | _, f => f

/-- The findings of a group of words after further decay. -/
def Rot.after (r : Rot) (d : Decay) : Rot :=
  { flipped := r.flipped - d.worsened + d.flipped
    lost := r.lost + min d.worsened r.flipped + d.lost }

/-- The findings of a meter row's words after further decay. -/
def MeterWords.after (w : MeterWords) (d : Decay) : MeterWords :=
  { number := worseFinding w.number d.number
    sequence := worseFinding w.sequence d.sequence
    body := w.body.after d }

/-- 1 for a corrected word, else 0. -/
def findingCorrections : Finding → Nat
  | .corrected => 1
  | _ => 0

/-- How many words of a meter row a read corrects (R149). -/
def MeterWords.corrections (w : MeterWords) : Nat :=
  findingCorrections w.number + findingCorrections w.sequence + w.body.flipped

/-- A sequence word that can be read, with or without correction, makes the row's sequence known (R170). -/
def MeterWords.sequenceKnown (w : MeterWords) : Bool :=
  w.sequence != .uncorrectable

/-- A meter row that an unlisted row number reads as: the free mark, sound (R145). -/
def freeRow : MeterRow := {}

/-- The content and findings of a meter row. -/
def RecordMemory.meterRow (m : RecordMemory) (n : Nat) : MeterRow :=
  (sparseFind m.meters n).getD freeRow

/-- Record memory with one meter row replaced, in canonical form: a row equal to what an unlisted row reads as is
not listed. -/
def RecordMemory.setMeterRow (m : RecordMemory) (n : Nat) (r : MeterRow) : RecordMemory :=
  { m with meters := if r = freeRow then sparseErase m.meters n else sparseSet m.meters n r }

/-- A row write of a record: every word is written afresh and reads back sound (R147). -/
def RecordMemory.writeRecord (m : RecordMemory) (n : Nat) (r : MeterRecord) : RecordMemory :=
  m.setMeterRow n { content := some r, words := {} }

/-- A row write of the free mark. -/
def RecordMemory.writeFree (m : RecordMemory) (n : Nat) : RecordMemory :=
  m.setMeterRow n freeRow

/-- New findings for a meter row's words, its content as it was. -/
def RecordMemory.setMeterWords (m : RecordMemory) (n : Nat) (w : MeterWords) : RecordMemory :=
  m.setMeterRow n { m.meterRow n with words := w }

/-- The canonical form of record memory: listed meter rows rise strictly by number and none equals an unlisted row. -/
abbrev RecordMemory.wf (m : RecordMemory) : Prop :=
  sparseRising m.meters ∧ ∀ e ∈ m.meters, e.2 ≠ freeRow

/-- The findings of the words of a row that is not a meter row. -/
def RecordMemory.rot (m : RecordMemory) : RowId → Rot
  | .meter _ => {}
  | .office => m.office.rot
  | .tariff i => m.tariffs[i].rot
  | .key i => m.keys[i].rot
  | .laneSettings => m.lanes.rot
  | .commit e => (m.commits.get e).rot

/-- New findings for the words of a row that is not a meter row, its content as it was. -/
def RecordMemory.setRot (m : RecordMemory) (id : RowId) (r : Rot) : RecordMemory :=
  match id with
  | .meter _ => m
  | .office => { m with office := { m.office with rot := r } }
  | .tariff i => { m with tariffs := m.tariffs.set i { m.tariffs[i] with rot := r } }
  | .key i => { m with keys := m.keys.set i { m.keys[i] with rot := r } }
  | .laneSettings => { m with lanes := { m.lanes with rot := r } }
  | .commit e => { m with commits := m.commits.set e { m.commits.get e with rot := r } }

/-- A row write of the office row. -/
def RecordMemory.writeOffice (m : RecordMemory) (r : OfficeRow) : RecordMemory :=
  { m with office := ⟨r, {}⟩ }

/-- A row write of a tariff row. -/
def RecordMemory.writeTariff (m : RecordMemory) (i : Fin 2) (b : Option Bank) : RecordMemory :=
  { m with tariffs := m.tariffs.set i ⟨b, {}⟩ }

/-- A row write of a key row. -/
def RecordMemory.writeKey (m : RecordMemory) (i : SlotId) (k : Option KeyContent) : RecordMemory :=
  { m with keys := m.keys.set i ⟨k, {}⟩ }

/-- A row write of the lane-settings row. -/
def RecordMemory.writeLanes (m : RecordMemory) (v : Vector LaneSettings 8) : RecordMemory :=
  { m with lanes := ⟨v, {}⟩ }

/-- A row write of a commit row. -/
def RecordMemory.writeCommit (m : RecordMemory) (e : EngineId) (c : Option Marker) : RecordMemory :=
  { m with commits := m.commits.set e ⟨c, {}⟩ }

/-! ## Lanes and engines -/

/-- The context of a lane. -/
def State.lane (s : State) (l : LaneId) : Lane :=
  s.lanes[l]

/-- The state with one lane's context replaced. -/
def State.setLane (s : State) (l : LaneId) (x : Lane) : State :=
  { s with lanes := s.lanes.set l x }

/-- The state with one lane's context changed. -/
def State.updateLane (s : State) (l : LaneId) (f : Lane → Lane) : State :=
  s.setLane l (f (s.lane l))

/-- The settings of a lane in force. -/
def State.settingsOf (s : State) (l : LaneId) : LaneSettings :=
  s.laneSettings[l]

/-- The state with one engine replaced. -/
def State.setEngine (s : State) (e : EngineId) (x : Engine) : State :=
  { s with engines := s.engines.set e x }

/-- What a BUSY engine holds. -/
def State.busyEngine (s : State) (e : EngineId) : Option BusyEngine :=
  match s.engines.get e with
  | .busy b => some b
  | _ => none

/-- A lane is OPEN or RESTRICTED and its lock flag is clear: it counts idle seconds (R85) and takes enquiries (R79). -/
def Lane.unlocked (l : Lane) : Bool :=
  (l.state == .opened || l.state == .restricted) && !l.locked

/-- A lane's discipline count raised by `n`, held at 255, with the thresholds of R88 and R89 in the same event; lane
0 is never RESTRICTED or BARRED (R89). -/
def Lane.raiseCount (isCounter : Bool) (n : Nat) (l : Lane) : Lane :=
  let count := min 255 (l.count + n)
  let raised := isCounter && l.count < count
  if raised && count == 255 && (l.state == .opened || l.state == .restricted) then
    { l with count := count, state := .barred, locked := false, queue := [], idle := 0, expiryDue := false }
  else if raised && 128 ≤ count && l.state == .opened then
    { l with count := count, state := .restricted }
  else
    { l with count := count }

/-- The raise of R87 on a lane of the bank; a lane that enters BARRED sets LANE_BARRED (R89). -/
def State.raiseCount (s : State) (l : LaneId) (n : Nat) : State :=
  let before := s.lane l
  let after := before.raiseCount (l != 0) n
  let s' := s.setLane l after
  if before.state ≠ .barred ∧ after.state = .barred then s'.raiseLaneBarred else s'

/-- A lane's discipline count lowered by one, held at 0 (R87). -/
def Lane.lowerCount (l : Lane) : Lane :=
  { l with count := l.count - 1 }

/-! ## Replies (R176) -/

/-- What a reply's code adds to the discipline count of the lane it is given on (R87). -/
def replyCharge : ResultCode → Nat
  | .badMeterNumber => 1
  | .outsideZone => 8
  | .badOperator => 8
  | _ => 0

/-- A count of 96 or more puts the warning mark on replies (R90). -/
def Lane.warns (l : Lane) : Bool :=
  96 ≤ l.count

/-- The reply to the request in hand is formed: the discipline count takes the reply's own change (R87), the warning
mark follows (R90), and the link enters REPLY_READY (R174). With no request in hand nothing changes. -/
def State.respond (s : State) (code : ResultCode) (body : ReplyBody) : State :=
  match s.exchange with
  | .working lane header overlap =>
    let s' := if replyCharge code = 0 then s else s.raiseCount lane (replyCharge code)
    { s' with exchange := .replyReady ⟨header, code, (s'.lane lane).warns, overlap, body⟩ }
  | _ => s

/-- A reply with an empty body. -/
def State.answer (s : State) (code : ResultCode) : State :=
  s.respond code .empty

/-! ## Row conditions, index, free list, damaged set, orphan list -/

/-- The condition of a meter row (R9). -/
def Store.condition (t : Store) (n : Nat) : RowCondition :=
  (sparseFind t.conditions n).getD .undetermined

/-- The store with a meter row's condition set. -/
def Store.setCondition (t : Store) (n : Nat) (c : RowCondition) : Store :=
  { t with conditions := if c = .undetermined then sparseErase t.conditions n else sparseSet t.conditions n c }

/-- The meter row that the index gives for a meter (R10). -/
def Store.rowOf (t : Store) (m : MeterNumber) : Option Nat :=
  sparseFind t.index m

/-- The meter whose index entry points to a row (R156). -/
def Store.meterAt (t : Store) (n : Nat) : Option MeterNumber :=
  (t.index.find? fun e => e.2 == n).map (·.1)

/-- The store with an index entry added. -/
def Store.indexMeter (t : Store) (m : MeterNumber) (n : Nat) : Store :=
  { t with index := sparseSet t.index m n }

/-- The store without the index entries that point to a row. -/
def Store.unindexRow (t : Store) (n : Nat) : Store :=
  { t with index := t.index.filter fun e => e.2 ≠ n }

/-- A row leaves the damaged-row set. -/
def Store.undamage (t : Store) (n : Nat) : Store :=
  { t with damaged := t.damaged.filter (· ≠ n) }

/-- A new orphan enters the orphan list, or sets the overflow mark when the list holds 32 numbers (R151). -/
def Store.listOrphan (t : Store) (n : Nat) : Store :=
  if t.orphans.contains n then t
  else if t.orphans.length < 32 then { t with orphans := t.orphans ++ [n] }
  else { t with overflow := true }

/-- The orphan rows that are not listed, in rising order. -/
def Store.unlistedOrphans (t : Store) : List Nat :=
  (t.conditions.filter fun e => e.2 == .orphan && !t.orphans.contains e.1).map (·.1)

/-- A row that is no longer an orphan leaves the list; when it was listed, the lowest-numbered unlisted orphan joins
the end (R23). The overflow mark stands while an orphan remains unlisted. -/
def Store.unlistOrphan (t : Store) (n : Nat) : Store :=
  if t.orphans.contains n then
    let t1 := { t with orphans := t.orphans.filter (· ≠ n) }
    match t1.unlistedOrphans with
    | [] => { t1 with overflow := false }
    | k :: rest => { t1 with orphans := t1.orphans ++ [k], overflow := !rest.isEmpty }
  else { t with overflow := !t.unlistedOrphans.isEmpty }

/-- Corrected words raise the memory error count, held at 16,777,215 (R153). -/
def Store.countErrors (t : Store) (n : Nat) : Store :=
  { t with errorCount := min 16777215 (t.errorCount + n) }

/-- A read has found corrected words (R149). -/
def State.countErrors (s : State) (n : Nat) : State :=
  { s with store := s.store.countErrors n }

/-- A row whose body holds an uncorrectable word joins the damaged-row set and sets ROW_DAMAGED; a row already in the
set causes neither (R150). -/
def State.markDamaged (s : State) (n : Nat) : State :=
  if s.store.damaged.contains n then s
  else { s.raiseRowDamaged with store := { s.store with damaged := insertRising n s.store.damaged } }

/-- A row becomes an orphan: out of the index and the damaged set, condition ORPHAN, onto the orphan list, with
ROW_DAMAGED set (R151, R170). -/
def State.makeOrphan (s : State) (n : Nat) : State :=
  { s.raiseRowDamaged with
    store := (((s.store.unindexRow n).undamage n).setCondition n .orphan).listOrphan n }

/-- A row that has been written free joins the free list (R11, R22, R23). -/
def Store.release (t : Store) (n : Nat) : Store :=
  { (t.setCondition n .free) with freeList := insertRising n t.freeList }

/-! ## Reads with correction (R149 to R151) -/

/-- What a read of a meter row answers. -/
inductive RowReading where
  /-- the meter-number word is uncorrectable -/
  | noNumber
  /-- another word is uncorrectable -/
  | damaged
  /-- the row holds the free mark -/
  | blank
  | record (r : MeterRecord)
  deriving DecidableEq, Repr

/-- The findings of a meter row as a read meets them. -/
def State.wordsAt (s : State) (n : Nat) (d : Decay) : MeterWords :=
  (s.memory.meterRow n).words.after d

/-- What a read of meter row `n` finds. -/
def State.reading (s : State) (n : Nat) (d : Decay) : RowReading :=
  let w := s.wordsAt n d
  if w.number = .uncorrectable then .noNumber
  else if w.sequence = .uncorrectable ∨ 0 < w.body.lost then .damaged
  else
    match (s.memory.meterRow n).content with
    | some r => .record r
    | none => .blank

/-- The store's own effects of a read of meter row `n` whatever its condition: corrected words are counted, and the row
is written again when nothing in it is lost (R149); a row with an uncorrectable word keeps its findings. -/
def State.readWords (s : State) (n : Nat) (d : Decay) : State :=
  let w := s.wordsAt n d
  let kept : MeterWords :=
    if w.number = .uncorrectable ∨ w.sequence = .uncorrectable ∨ 0 < w.body.lost then w else {}
  { s.countErrors w.corrections with memory := s.memory.setMeterWords n kept }

/-- A read of a row in condition RECORD, with the effects of R149 to R151. -/
def State.readRecordRow (s : State) (n : Nat) (d : Decay) : State :=
  match s.reading n d with
  | .noNumber => (s.readWords n d).makeOrphan n
  | .damaged => (s.readWords n d).markDamaged n
  | _ => s.readWords n d

/-- A read of an office row or a commit row finds an uncorrectable word (R152). -/
def State.rowLost (s : State) (id : RowId) (d : Decay) : Bool :=
  0 < ((s.memory.rot id).after d).lost

/-- A read of an office row or a commit row: corrected words are counted, and the row is written again when nothing in
it is lost (R149, R152). -/
def State.readPlainRow (s : State) (id : RowId) (d : Decay) : State :=
  let r := (s.memory.rot id).after d
  { s.countErrors r.flipped with memory := s.memory.setRot id (if 0 < r.lost then r else {}) }

/-- The office enters FAULT with its fault record (R152, R166, R172). -/
def State.enterFault (s : State) (id : RowId) (byScrubber : Bool) : State :=
  { s with office := .fault, faultRecord := some ⟨id, byScrubber⟩ }

/-! ## The store's list of operations (R128, R148) -/

/-- The office row formed from the current value of every field (R128, R141). -/
def State.officeImage (s : State) : OfficeRow :=
  { granted := s.authority.granted
    spent := s.authority.spent
    lastSerial := s.authority.lastSerial
    day := s.authority.day
    month := s.authority.month
    tally := s.authority.tally
    dayAgeHours := s.authority.dayAge / 60
    overdue := s.authority.overdue
    commitCounts := s.authority.commitCounts
    settings := s.settings
    alarmExponent := s.store.alarmExponent }

/-- A counter of the day tally held at the top of its range (R134). -/
def holdAt (top n : Nat) : Nat := min top n

/-- The day tally with an item's increments added (R134, R135). -/
def DayTally.add (t i : DayTally) : DayTally :=
  { money := t.money + i.money
    arrears := holdAt 1000000000000 (t.arrears + i.arrears)
    charge := holdAt 1000000000000 (t.charge + i.charge)
    energyCost := holdAt 9999999999999999 (t.energyCost + i.energyCost)
    paidEnergy := holdAt 4294967295 (t.paidEnergy + i.paidEnergy)
    allowanceEnergy := holdAt 4294967295 (t.allowanceEnergy + i.allowanceEnergy)
    purchases := holdAt 4294967295 (t.purchases + i.purchases)
    services := holdAt 4294967295 (t.services + i.services)
    tokens := holdAt 4294967295 (t.tokens + i.tokens) }

/-- The changes a committed item makes to the office row: spent, day tally and the engine's commit count (R158). -/
def OfficeRow.spend (r : OfficeRow) (e : EngineId) (m : Marker) : OfficeRow :=
  { r with
    spent := r.spent + m.tender
    tally := r.tally.add m.increments
    commitCounts := r.commitCounts.set e m.count }

/-- The change a write of the office row applies to the row formed from current values. -/
def OfficeWrite.form (w : OfficeWrite) (r : OfficeRow) : OfficeRow :=
  match w with
  | .grant amount serial => { r with granted := r.granted + amount, lastSerial := serial }
  | .closeDay => { r with day := r.day + 1, tally := {}, dayAgeHours := 0, overdue := false }
  | .closeMonth => { r with month := r.month + 1 }
  | .dayAge => r
  | .commit e m => r.spend e m
  | .rollForward e m => r.spend e m
  | .setOffice settings => { r with settings := settings }
  | .setAlarm exponent _ => { r with alarmExponent := exponent }

/-- The free row that a new record takes (R11, R17, R26): the first of the free list, when the meter has no index entry
and no target row is named. -/
def Store.allocation (t : Store) (m : MeterNumber) (named : Option Nat) : Option Nat :=
  if (t.rowOf m).isNone ∧ named = none then t.freeList.head? else none

/-- The store takes an operation: an office-row write is formed from current values (R128), and a new record's row
becomes ALLOCATED and leaves the free list (R17, R26). -/
def State.takeOp (s : State) (op : RowOp) : State :=
  let allocate (m : MeterNumber) (named : Option Nat) : State :=
    match s.store.allocation m named with
    | some n =>
      { s with store := { (s.store.setCondition n .allocated) with
          freeList := s.store.freeList.filter (· ≠ n), inProgress := some { op := op, row := some n } } }
    | none => { s with store := { s.store with inProgress := some { op := op } } }
  match op with
  | .office w =>
    { s with store := { s.store with inProgress := some { op := op, office := some (w.form s.officeImage) } } }
  | .record (.enrol f) => allocate f.meter none
  | .record (.restore f) => allocate f.image.meter f.target
  | _ => { s with store := { s.store with inProgress := some { op := op } } }

/-- A row operation reaches the store: it is taken at once, or joins the end of the list (R148). -/
def State.place (s : State) (op : RowOp) : State :=
  match s.store.inProgress with
  | none => s.takeOp op
  | some _ => { s with store := { s.store with waiting := s.store.waiting ++ [op] } }

/-- The operation in progress has completed: the store takes the first on the list (R148). -/
def State.finishOp (s : State) : State :=
  match s.store.waiting with
  | [] => { s with store := { s.store with inProgress := none } }
  | op :: rest => { s with store := { s.store with waiting := rest } }.takeOp op

/-- The operation in progress. -/
def State.current (s : State) : Option RowOp :=
  s.store.inProgress.map (·.op)

/-- The office row formed for the write in progress. -/
def State.formedRow (s : State) : OfficeRow :=
  match s.store.inProgress with
  | some t => t.office.getD s.officeImage
  | none => s.officeImage

/-- A write of the office row completes in record memory. -/
def State.officeWritten (s : State) : State :=
  { s with memory := s.memory.writeOffice s.formedRow }

/-! ## The meter lock table (R109 to R111) -/

/-- An engine names the meter. -/
def LockTable.heldByEngine (t : LockTable) (m : MeterNumber) : Bool :=
  t.engines.a == some m || t.engines.b == some m

/-- No holder names the meter. -/
def LockTable.free (t : LockTable) (m : MeterNumber) : Bool :=
  !t.heldByEngine m && t.scrubber != some m

/-- A waiting engine claim is on the list for the meter. -/
def LockTable.awaited (t : LockTable) (m : MeterNumber) : Bool :=
  t.waiting.any (·.2 == m)

/-- A claim is granted: the engine's entry names the meter, the engine reads the trading month and asks the store for
the row (R110, R113, R114). -/
def State.grantClaim (s : State) (e : EngineId) (m : MeterNumber) : State :=
  let s1 := { s with locks := { s.locks with engines := s.locks.engines.set e (some m) } }
  match s.busyEngine e with
  | some b =>
    (s1.setEngine e (.busy { b with stage := .read, work := { b.work with month := s.authority.month } })).place
      (.itemRead e m)
  | none => s1

/-- An engine claims a meter (R110). A claim on a meter with a claim already waiting joins the list behind it (log
entry 11). -/
def State.claim (s : State) (e : EngineId) (m : MeterNumber) : State :=
  if s.locks.free m && !s.locks.awaited m then s.grantClaim e m
  else { s with locks := { s.locks with waiting := s.locks.waiting ++ [(e, m)] } }

/-- An engine releases its meter (R120, R121). -/
def State.releaseLock (s : State) (e : EngineId) : State :=
  { s with locks := { s.locks with engines := s.locks.engines.set e none } }

/-- An engine's item in hand has read this row at its stage 2 (R23, R26). -/
def State.rowInHand (s : State) (n : Nat) : Bool :=
  let reads (e : EngineId) : Bool :=
    match s.busyEngine e with
    | some b => b.work.row == some n
    | none => false
  reads .a || reads .b

/-! ## The cipher arbiter (R72) -/

/-- The engine whose token a cipher request is for. -/
def CipherRequest.engine : CipherRequest → Option EngineId
  | .token e _ _ => some e
  | _ => none

/-- The other engine. -/
def otherEngine : EngineId → EngineId
  | .a => .b
  | .b => .a

/-- A request is granted: the cipher becomes BUSY with it, and a granted engine becomes the last served. -/
def Cipher.grant (c : Cipher) (r : CipherRequest) : Cipher :=
  { c with busy := some r, lastServed := r.engine.getD c.lastServed }

/-- One request reaches the arbiter: granted at once when the cipher is FREE, else at the end of the list. -/
def Cipher.request (c : Cipher) (r : CipherRequest) : Cipher :=
  match c.busy with
  | none => c.grant r
  | some _ => { c with waiting := c.waiting ++ [r] }

/-- The order in which requests that arrive together are placed: the engine that was not served last, then the other
engine, then the verifications. -/
def tieOrder (lastServed : EngineId) (rs : List CipherRequest) : List CipherRequest :=
  rs.filter (·.engine == some (otherEngine lastServed)) ++ rs.filter (·.engine == some lastServed)
    ++ rs.filter (·.engine == none)

/-- Requests that arrive together reach the arbiter. -/
def Cipher.arrive (c : Cipher) (rs : List CipherRequest) : Cipher :=
  (tieOrder c.lastServed rs).foldl Cipher.request c

/-- The operation in hand completes: the first on the list is granted, or the cipher becomes FREE. -/
def Cipher.complete (c : Cipher) : Cipher :=
  match c.waiting with
  | [] => { c with busy := none }
  | r :: rest => { c with waiting := rest }.grant r

/-- One request of the part reaches the arbiter. -/
def State.requestCipher (s : State) (r : CipherRequest) : State :=
  { s with cipher := s.cipher.arrive [r] }

/-- The cipher's operation has completed. -/
def State.completeCipher (s : State) : State :=
  { s with cipher := s.cipher.complete }

/-! ## The lock table for supervisor requests (R15) -/

/-- The meter a record operation names, when it consults the lock table. -/
def RecordOp.lockMeter : RecordOp → Option MeterNumber
  | .amend f => some f.meter
  | .retire m => some m
  | .reinstate m => some m
  | .purge m => some m
  | .restore f => some f.image.meter
  | .enrol _ => none
  | .purgeRow _ => none

/-- A supervisor request reaches the lock table as one event: placed with the store, refused METER_BUSY, or left to
wait for the scrubber. A request that names no meter to the table is placed. A claim that only waits for the meter is no
holder, so between a release and CLAIM_RETAKEN the request is placed (DESIGN CHOICE, log entry 11). -/
def State.consultLocks (s : State) (op : RecordOp) : State :=
  match op.lockMeter with
  | none => s.place (.record op)
  | some m =>
    if s.locks.heldByEngine m then s.answer .meterBusy
    else if s.locks.scrubber = some m then { s with locks := { s.locks with supervisor := some op } }
    else s.place (.record op)

end Sys2Proof.Machine
end

