-- ==== Sys2Proof/Machine/Timers.lean ====
section
/-! DEFINITION. The timers: TICK, IDLE_EXPIRY and DAY_AGE_MINUTE (R85, R86, R140 to R142). One pulse brings up to
three kinds of step; the model takes them apart as the table does, and settles those a pulse has left due
before anything else that the pulse's own rules would have come before (log entry 3). -/

namespace Sys2Proof.Machine

open Sys2Proof

/-- A TICK on a lane: while it is OPEN or RESTRICTED and unlocked its idle seconds rise by one (R85); when they reach or
pass the idle limit, its expiry is due (R86). -/
def Lane.tick (idleLimit : Nat) (l : Lane) : Lane :=
  if l.unlocked then { l with idle := l.idle + 1, expiryDue := decide (idleLimit ≤ l.idle + 1) } else l

/-- The idle expiry of a lane on which it is due: the lock flag is set and the idle seconds become 0 (R86). -/
def Lane.expire (l : Lane) : Lane :=
  if l.expiryDue then { l with locked := true, idle := 0, expiryDue := false } else l

/-- The overdue rule R142: with the day age at or above the day limit and the flag clear, the flag is set and
DAY_OVERDUE with it. The write of the office row is placed by the caller's event. -/
def State.setOverdue (s : State) : State :=
  { s.raiseDayOverdue with authority := { s.authority with overdue := true } }

/-- The condition of R142 holds. -/
def State.overdueDue (s : State) : Bool :=
  !s.authority.overdue && s.settings.dayLimit * 60 ≤ s.authority.dayAge

/-- R142 at an event other than a minute step. -/
def State.checkOverdue (s : State) : State :=
  if s.overdueDue then s.setOverdue.place (.office .dayAge) else s

/-- The day age one minute on, held at 65,535, with its prescaler at 0 (R140). -/
def Authority.minute (a : Authority) : Authority :=
  { a with prescaler := 0, dayAge := min 65535 (a.dayAge + 1) }

/-- A minute step has brought the day age to a whole number of hours (R141). -/
def Authority.wholeHour (before after : Authority) : Bool :=
  before.dayAge < after.dayAge && after.dayAge % 60 == 0

/-- The day-age minute step (R140) with its hourly write (R141) and the overdue rule (R142); the hourly write and the
write of the flag are one write. -/
def State.minuteStep (s : State) : State :=
  let s1 := { s with authority := s.authority.minute }
  let s2 := if s1.overdueDue then s1.setOverdue else s1
  if s1.overdueDue || Authority.wholeHour s.authority s1.authority then s2.place (.office .dayAge) else s2

/-- The minute step is due: a pulse has raised the prescaler to 60 (R140). -/
def Authority.minuteDue (a : Authority) : Bool :=
  60 ≤ a.prescaler

/-- Takes the minute step if it is due. -/
def State.settleMinute (s : State) : State :=
  if s.authority.minuteDue then s.minuteStep else s

/-- Takes every idle expiry that is due. -/
def State.settleLanes (s : State) : State :=
  { s with lanes := s.lanes.map Lane.expire }

/-- Takes whatever a TICK has left due (R86, R140). -/
def State.settleTick (s : State) : State :=
  s.settleLanes.settleMinute

/-- A TICK has left nothing due. -/
def State.tickSettled (s : State) : Bool :=
  s.lanes.toList.all (!·.expiryDue) && !s.authority.minuteDue

/-- One pulse of TICK: the idle seconds of every lane that counts them (R85), and the prescaler while the office is
READY (R140). -/
def State.pulse (s : State) : State :=
  let s1 := { s with lanes := s.lanes.map (Lane.tick s.settings.idleLimit) }
  if s.office = .ready then
    { s1 with authority := { s1.authority with prescaler := s1.authority.prescaler + 1 } }
  else s1

/-- TICK (R85, R140). -/
def execTick (s : State) : Host.Outcome State Fault Refusal :=
  .next s.settleTick.pulse

/-- IDLE_EXPIRY of a lane (R86). -/
def execIdleExpiry (lane : LaneId) (s : State) : Host.Outcome State Fault Refusal :=
  .next (s.updateLane lane Lane.expire)

/-- DAY_AGE_MINUTE (R140). -/
def execDayAgeMinute (s : State) : Host.Outcome State Fault Refusal :=
  .next s.settleMinute

end Sys2Proof.Machine
end

