-- ==== Sys2Proof/Machine/Link.lean ====
section
/-! DEFINITION. The request link (R174 to R177): how a frame is taken in IDLE, discarded in WORKING or REPLY_READY, or
refused by the link, and how a reply is read. -/

namespace Sys2Proof.Machine

open Sys2Proof

/-- The header of a request as received. -/
def requestHeader (k : Kind) (lane : LaneId) (tag : Tag) : Header :=
  ⟨BitVec.ofNat 8 lane.val, BitVec.ofNat 8 k.number, tag⟩

/-- A frame on a lane sets its idle seconds to 0 (R85). -/
def Lane.frameTaken (l : Lane) : Lane :=
  { l with idle := 0 }

/-- A frame that passes checks 1 and 2 of R176: the lane's idle seconds become 0 and the link enters WORKING (R174). -/
def State.beginExchange (s : State) (lane : LaneId) (h : Header) : State :=
  { s.updateLane lane Lane.frameTaken with exchange := .working lane h false }

/-- A frame that arrives while a reply is being formed or waits is discarded, with the overlap mark set (R175). -/
def State.discardFrame (s : State) : State :=
  match s.exchange with
  | .idle => s
  | .working lane h _ => { s with exchange := .working lane h true }
  | .replyReady r => { s with exchange := .replyReady { r with overlap := true } }

/-- Checks 4 and 5 of R176, then the lane bank's and the owner's rules. -/
def State.route (s : State) (k : Kind) (lane : LaneId) (owner : State → State) : State :=
  if s.office = .starting ∧ k ≠ .readStatus then s.answer .starting
  else if s.office = .fault ∧ k ≠ .readStatus then s.answer .fault
  else if k.isCounter ∨ lane = 0 then owner s
  else s.answer .notSupervisor

/-- A request frame that passes checks 1 to 3: not taken while RESET is held (R165), discarded unless the link is IDLE
(R175), else taken and routed (R176). A TICK's steps that are due come first (log entry 3). -/
def State.takeFrame (s : State) (k : Kind) (lane : LaneId) (tag : Tag) (owner : State → State) : State :=
  if s.resetHeld then s
  else
    match s.exchange with
    | .idle => (s.settleTick.beginExchange lane (requestHeader k lane tag)).route k lane owner
    | _ => s.discardFrame

/-- Lane 0 admits supervisor requests: OPEN and unlocked (R79, R177). -/
def State.supervisorOpen (s : State) : Bool :=
  (s.lane 0).state == .opened && !(s.lane 0).locked

/-- The admission of a supervisor request (R79). -/
def State.supervise (s : State) (owner : State → State) : State :=
  if s.supervisorOpen then owner s else s.answer .laneState

/-- A supervisor request that every other state of lane 0 refuses LANE_STATE. -/
def State.takeSupervisor (s : State) (k : Kind) (lane : LaneId) (tag : Tag) (owner : State → State) : State :=
  s.takeFrame k lane tag fun t => t.supervise owner

/-- A reply formed by the link before any lane is known: no discipline count and no warning mark (R90, R176). -/
def State.refuseUnknownLane (s : State) (h : Header) (code : ResultCode) : State :=
  { s with exchange := .replyReady ⟨h, code, false, false, .empty⟩ }

/-- BAD_FRAME: a selection in IDLE whose frame fails check 1, 2 or 3 of R176. A selection without a start byte carries
no frame (R174), and a frame that passes all three is the request of its own command (log entry 29). -/
def State.takeBadFrame (s : State) (bytes : List Byte) : State :=
  if s.resetHeld then s
  else
    match s.exchange with
    | .idle =>
      match classify bytes with
      | .noFrame => s
      | .badFrame => s.refuseUnknownLane ⟨0, 0, 0⟩ .badFrame
      | .badLane h => s.refuseUnknownLane h .badLane
      | .unknownRequest lane h => (s.settleTick.beginExchange lane h).answer .unknownRequest
      | .request _ _ _ _ => s
    | _ => if carriesFrame bytes then s.discardFrame else s

/-- BAD_FRAME (R176). -/
def execBadFrame (bytes : List Byte) (s : State) : Host.Outcome State Fault Refusal :=
  .next (s.takeBadFrame bytes)

/-- A selection with a start byte that arrives while the link is WORKING or REPLY_READY (R175); while RESET is held no
frame is taken (R174). -/
def State.takeDiscarded (s : State) (bytes : List Byte) : State :=
  if s.resetHeld || !carriesFrame bytes then s else s.discardFrame

/-- FRAME_DISCARDED (R175). -/
def execFrameDiscarded (bytes : List Byte) (s : State) : Host.Outcome State Fault Refusal :=
  .next (s.takeDiscarded bytes)

/-- A selection in REPLY_READY that clocks out `count` bytes: with the whole reply clocked out, READY falls, the reply is
discarded and the link is IDLE; with fewer, the reply stays unread (R174). -/
def State.readReply (s : State) (count : Nat) : State :=
  match s.exchange with
  | .replyReady r => if (replyFrame r).length ≤ count then { s with exchange := .idle } else s
  | _ => s

/-- REPLY_READ (R174). -/
def execReplyRead (count : Nat) (s : State) : Host.Outcome State Fault Refusal :=
  .next (s.readReply count)

end Sys2Proof.Machine
end

