-- ==== Sys2Proof/Machine/Tariffs.lean ====
section
/-! DEFINITION. Tariffs and the purchase calculation (R30 to R52): month rollover (R7), the nine stages (R39 to R48), the
quotation outcomes (R51), and the tariff unit's requests and events: SET_TARIFF, CLEAR_PENDING_TARIFF, READ_TARIFF, their
row writes, and MONTH_ADVANCE. -/

namespace Sys2Proof.Machine

open Sys2Proof

/-! ## Month rollover (R7) -/

/-- Month rollover of a record against a month (R7): nothing changes when the stamps are equal. -/
def MeterRecord.rollover (r : MeterRecord) (month : Nat) : MeterRecord :=
  if r.monthStamp = month then r
  else { r with monthEnergy := 0, chargePaid := 0, allowanceIssued := false, monthStamp := month }

/-! ## The block walk (R44) -/

/-- What a walk has bought, its running month-to-date energy, the money left, the cost, and the block it stopped in. -/
structure Walk where
  bought : Nat
  energy : Nat
  money : Nat
  cost : Nat
  block : Nat
  deriving DecidableEq, Repr

/-- The whole tenths the money buys at one price: the walk stops here. -/
def Walk.stop (price block energy bought money cost : Nat) : Walk :=
  let q := money / price
  ⟨bought + q, energy + q, money - q * price, cost + q * price, block⟩

/-- The walk of R44 from block number `block` on. A bounded block whose threshold does not exceed the running energy is
passed: the walk starts in the first block whose threshold exceeds it. -/
def walkBlocks (lastPrice : Nat) : List Block → Nat → Nat → Nat → Nat → Nat → Walk
  | [], block, energy, bought, money, cost => Walk.stop lastPrice block energy bought money cost
  | b :: rest, block, energy, bought, money, cost =>
    if b.threshold ≤ energy then walkBlocks lastPrice rest (block + 1) energy bought money cost
    else
      let room := b.threshold - energy
      let full := room * b.price
      if full ≤ money then
        walkBlocks lastPrice rest (block + 1) b.threshold (bought + room) (money - full) (cost + full)
      else Walk.stop b.price block energy bought money cost

/-- The number of the block in which a walk would start (R44, R48). -/
def startBlock : List Block → Nat → Nat → Nat
  | [], block, _ => block
  | b :: rest, block, energy => if b.threshold ≤ energy then startBlock rest (block + 1) energy else block

/-! ## The nine stages (R40 to R48) -/

/-- Stage 2: arrears recovered (R41). -/
def recovery (arrears rate tender : Nat) : Nat :=
  min arrears (tender * rate / 100)

/-- Stage 3: charge collected from what remains of the tender (R42). The subtraction holds the charge due at 0. -/
def collection (charge paid remaining : Nat) : Nat :=
  min (charge - paid) remaining

/-- Stage 8: the allowance due (R47). -/
def allowanceDue (c : TariffClass) (r : MeterRecord) : Option Nat :=
  if 0 < c.allowance ∧ r.allowanceIssued = false then some c.allowance else none

/-- The calculation of a zero tender: stage 8, then stage 9 (R48). -/
def calculateZero (c : TariffClass) (r : MeterRecord) : Except RefusalCode Calculation :=
  let due := allowanceDue c r
  if due = none ∧ r.pendingGeneration = none then .error .nothingDue
  else
    .ok
      { recovered := 0, arrears := r.arrears, arrearsCleared := false, collected := 0, chargePaid := r.chargePaid
        bought := 0, monthEnergy := r.monthEnergy, blockReached := startBlock c.bounded 1 r.monthEnergy
        energyCost := 0, carry := r.carry, allowance := due, allowanceIssued := r.allowanceIssued || due.isSome }

/-- Stages 2 to 8 of a tender above 0 that has passed the limits (R41 to R47). -/
def calculatePaid (c : TariffClass) (r : MeterRecord) (tender : Nat) : Except RefusalCode Calculation :=
  let recovered := recovery r.arrears r.recoveryRate tender
  let collected := collection c.charge r.chargePaid (tender - recovered)
  let money := (tender - recovered - collected) * 1000 + r.carry
  let w := walkBlocks c.lastPrice c.bounded 1 r.monthEnergy 0 money 0
  let due := allowanceDue c r
  if 999999 < w.bought ∨ 9999999 < w.energy then .error .amountOverflow
  else
    .ok
      { recovered := recovered, arrears := r.arrears - recovered
        arrearsCleared := decide (0 < r.arrears ∧ r.arrears - recovered = 0)
        collected := collected, chargePaid := r.chargePaid + collected, bought := w.bought, monthEnergy := w.energy
        blockReached := w.block, energyCost := w.cost, carry := w.money, allowance := due
        allowanceIssued := r.allowanceIssued || due.isSome }

/-- The purchase calculation of R39 on a record after rollover. -/
def calculate (c : TariffClass) (r : MeterRecord) (tender : Nat) : Except RefusalCode Calculation :=
  if tender = 0 then calculateZero c r
  else if tender < c.tenderMin then .error .limitLow
  else if c.tenderMax < tender then .error .limitHigh
  else calculatePaid c r tender

/-! ## The tokens an item would issue (R55, R56) -/

/-- The key change pair that a pending generation makes due, with the amount field of KEY_CHANGE_A (R55, R59); the amount
of KEY_CHANGE_B is the confirmation value, known when it is computed. -/
def keyChangePair (r : MeterRecord) : List (TokenKind × Nat) :=
  match r.pendingGeneration with
  | some h => [(.keyChangeA, h), (.keyChangeB, 0)]
  | none => []

/-- The group of a purchase item in group order (R55). -/
def purchaseGroup (r : MeterRecord) (v : Calculation) : List (TokenKind × Nat) :=
  keyChangePair r ++ (v.allowance.map fun a => (TokenKind.allowance, a)).toList
    ++ (if 0 < v.bought then [(TokenKind.credit, v.bought)] else [])

/-- The group of a service item (R56). -/
def serviceGroup (r : MeterRecord) (kind : TokenKind) (amount : Nat) : List (TokenKind × Nat) :=
  keyChangePair r ++ [(kind, amount)]

/-- A group of `n` tokens fits above a sequence (R60). -/
def sequenceRoom (sequence n : Nat) : Bool :=
  n == 0 || sequence + n ≤ maxSequence

/-! ## The tariff unit (R31, R37, R38) -/

/-- A class of a bank, numbered 1 to 15. -/
def Bank.cls (b : Bank) (k : Nat) : Option TariffClass :=
  if k = 0 then none else (b.classes[k - 1]?).join

/-- A class of the active bank: the snapshot an engine asks for (R38). -/
def TariffUnit.snapshot (t : TariffUnit) (k : Nat) : Option TariffClass :=
  match t.active with
  | some p => p.2.cls k
  | none => none

/-- The bank switch at a month advance (R37). -/
def TariffUnit.advance (t : TariffUnit) (month : Nat) : TariffUnit :=
  match t.pending with
  | some p => if p.2.effective ≤ month then { t with active := some p, pending := none } else t
  | none => t

/-- The quote outcome of an ACTIVE record after virtual rollover, with the class the active bank gives (R51). -/
def quoteOutcome (cls : Option TariffClass) (r : MeterRecord) (tender : Nat) : QuoteOutcome :=
  match cls with
  | none => .classUndefined
  | some c =>
    match calculate c r tender with
    | .error .limitLow => .limitLow c.tenderMin c.tenderMax
    | .error .limitHigh => .limitHigh c.tenderMin c.tenderMax
    | .error .amountOverflow => .amountOverflow
    | .error _ => .nothingDue
    | .ok v =>
      let group := purchaseGroup r v
      if sequenceRoom r.sequence group.length then
        .pass v (group.map (·.1)) (if group.isEmpty then 0 else r.sequence + 1)
      else .sequenceExhausted

/-! ## The requests -/

/-- The banks once every month-advance event that has been handed to the unit is taken, oldest first (R37, R139). -/
def TariffUnit.settle (t : TariffUnit) : TariffUnit :=
  t.advances.foldl TariffUnit.advance { t with advances := [] }

/-- The tariff unit takes the month advances handed to it before a request that writes a tariff row (log entry 21). -/
def State.settleTariff (s : State) : State :=
  { s with tariff := s.tariff.settle }

/-- The tariff row that SET_TARIFF writes: the one that does not give the active bank, or row 0 (R34). -/
def TariffUnit.writeRow (t : TariffUnit) : Fin 2 :=
  match t.active with
  | some p => if p.1 = 0 then 1 else 0
  | none => 0

/-- SET_TARIFF at the tariff unit (R33, R34). The row is chosen by the banks in force once the month advances that came
before the request are taken, so that no advance falls into the write (R34). -/
def State.setTariffRequest (body : List Byte) (s : State) : State :=
  match checkTariff s.authority.month body with
  | .error k => s.respond .badField (.failingClass k)
  | .ok bank => s.settleTariff.place (.setTariff s.settleTariff.tariff.writeRow bank)

/-- SET_TARIFF (R33). -/
def execSetTariff (lane : LaneId) (tag : Tag) (body : List Byte) (s : State) : Host.Outcome State Fault Refusal :=
  .next (s.takeSupervisor .setTariff lane tag (State.setTariffRequest body))

/-- The tariff-row write of SET_TARIFF completes: the pending bank becomes LOADED (R34). -/
def State.tariffWritten (row : Fin 2) (bank : Bank) (s : State) : State :=
  ({ s with memory := s.memory.writeTariff row (some bank)
            tariff := { s.tariff with pending := some (row, bank) } }.finishOp).answer .done

/-- SET_TARIFF_WRITE_DONE (R34). -/
def execSetTariffWriteDone (s : State) : Host.Outcome State Fault Refusal :=
  .next (match s.current with
    | some (.setTariff row bank) => s.tariffWritten row bank
    | _ => s)

/-- CLEAR_PENDING_TARIFF at the tariff unit (R35), which first takes the month advances that came before it. -/
def State.clearTariffRequest (body : List Byte) (s : State) : State :=
  match decodeEmpty body with
  | none => s.answer .badField
  | some _ =>
    match s.settleTariff.tariff.pending with
    | some p => s.settleTariff.place (.clearTariff p.1)
    | none => s.settleTariff.respond .done (.bankCleared false)

/-- CLEAR_PENDING_TARIFF (R35). -/
def execClearPendingTariff (lane : LaneId) (tag : Tag) (body : List Byte) (s : State) : Host.Outcome State Fault Refusal :=
  .next (s.takeSupervisor .clearPendingTariff lane tag (State.clearTariffRequest body))

/-- The tariff-row write of CLEAR_PENDING_TARIFF completes: the pending bank becomes EMPTY (R35). -/
def State.tariffCleared (row : Fin 2) (s : State) : State :=
  ({ s with memory := s.memory.writeTariff row none
            tariff := { s.tariff with pending := none } }.finishOp).respond .done (.bankCleared true)

/-- CLEAR_TARIFF_WRITE_DONE (R35). -/
def execClearTariffWriteDone (s : State) : Host.Outcome State Fault Refusal :=
  .next (match s.current with
    | some (.clearTariff row) => s.tariffCleared row
    | _ => s)

/-- The report of READ_TARIFF (R36). -/
def TariffUnit.report (t : TariffUnit) (pendingBank : Bool) (k : Nat) : TariffReport :=
  { activeMonth := t.active.map (·.2.effective)
    pendingMonth := t.pending.map (·.2.effective)
    tariffClass := ((if pendingBank then t.pending else t.active).bind fun p => p.2.cls k) }

/-- READ_TARIFF at the tariff unit (R36). -/
def State.readTariffRequest (body : List Byte) (s : State) : State :=
  match decodeReadTariff body with
  | none => s.answer .badField
  | some (pendingBank, k) => s.respond .done (.tariff (s.tariff.report pendingBank k))

/-- READ_TARIFF (R36). -/
def execReadTariff (lane : LaneId) (tag : Tag) (body : List Byte) (s : State) : Host.Outcome State Fault Refusal :=
  .next (s.takeSupervisor .readTariff lane tag (State.readTariffRequest body))

/-- The tariff unit takes the oldest month-advance event handed to it (R37, R139). -/
def TariffUnit.takeAdvance (t : TariffUnit) : TariffUnit :=
  match t.advances with
  | month :: rest => { t with advances := rest }.advance month
  | [] => t

/-- MONTH_ADVANCE (R37). -/
def execMonthAdvance (s : State) : Host.Outcome State Fault Refusal :=
  .next { s with tariff := s.tariff.takeAdvance }

/-! ## Start-up (R32) -/

/-- The bank a tariff row holds, with its row number. -/
def rowBank (rows : Vector (Row (Option Bank)) 2) (i : Fin 2) : Option (Fin 2 × Bank) :=
  rows[i].content.map fun b => (i, b)

/-- The active bank that the tariff rows give at month `m`: the greater effective month not above it (R32). -/
def startupActive (rows : Vector (Row (Option Bank)) 2) (m : Nat) : Option (Fin 2 × Bank) :=
  let held (i : Fin 2) := (rowBank rows i).filter fun p => p.2.effective ≤ m
  match held 0, held 1 with
  | some p, some q => if p.2.effective < q.2.effective then some q else some p
  | some p, none => some p
  | none, q => q

/-- The pending bank that the tariff rows give at month `m` (R32). -/
def startupPending (rows : Vector (Row (Option Bank)) 2) (m : Nat) : Option (Fin 2 × Bank) :=
  let held (i : Fin 2) := (rowBank rows i).filter fun p => m < p.2.effective
  match held 0 with
  | some p => some p
  | none => held 1

/-- The tariff unit's banks at start-up (R32). -/
def startupTariff (rows : Vector (Row (Option Bank)) 2) (m : Nat) : TariffUnit :=
  { active := startupActive rows m, pending := startupPending rows m, advances := [] }

end Sys2Proof.Machine
end

