-- ==== Sys2Proof/Machine/Tokens.lean ====
section
/-! DEFINITION. Tokens and key slots (R53 to R73): numbering and generations of a group, the clear content and the token
computation, the key slots with their in-use counts, and LOAD_KEY, DROP_KEY and READ_KEYS with their completions. -/

namespace Sys2Proof.Machine

open Sys2Proof

/-! ## Numbering a group (R57, R58) -/

/-- A token of the key change pair. -/
def isKeyChange : TokenKind → Bool
  | .keyChangeA => true
  | .keyChangeB => true
  | _ => false

/-- The generation a token of a record's group is enciphered under (R58). -/
def groupGeneration (r : MeterRecord) (k : TokenKind) : Nat :=
  if isKeyChange k then r.keyGeneration else r.pendingGeneration.getD r.keyGeneration

/-- A group numbered upward from `sequence`, in group order (R57, R58). -/
def numberGroup (r : MeterRecord) : Nat → List (TokenKind × Nat) → List PlannedToken
  | _, [] => []
  | sequence, (k, amount) :: rest =>
    ⟨k, sequence + 1, groupGeneration r k, amount, if k = .keyChangeB then r.pendingGeneration else none⟩
      :: numberGroup r (sequence + 1) rest

/-! ## Key slots (R65 to R67) -/

/-- The generation a slot is LOADED with. -/
def KeySlot.generation (k : KeySlot) : Option Nat :=
  match k.state with
  | .loaded g _ => some g
  | _ => none

/-- The slot LOADED with a generation, if any. -/
def findSlot (slots : Vector KeySlot 4) (g : Nat) : Option SlotId :=
  (List.finRange 4).find? fun i => slots[i].generation == some g

/-- The office key of a LOADED generation. -/
def officeKeyOf (slots : Vector KeySlot 4) (g : Nat) : Option Config.OfficeKey :=
  match findSlot slots g with
  | some i =>
    match slots[i].state with
    | .loaded _ key => some key
    | _ => none
  | none => none

/-- The slots of the generations an item on a record needs: all found LOADED, or none (R66, R67). Each slot is named once,
since an item raises each slot at most once. -/
def neededSlots (slots : Vector KeySlot 4) (r : MeterRecord) : Option (List SlotId) :=
  match findSlot slots r.keyGeneration, r.pendingGeneration with
  | some i, none => some [i]
  | some i, some h =>
    match findSlot slots h with
    | some j => some (if i = j then [i] else [i, j])
    | none => none
  | none, _ => none

/-- The state with a slot replaced. -/
def State.setSlot (s : State) (i : SlotId) (k : KeySlot) : State :=
  { s with slots := s.slots.set i k }

/-- The in-use counts of the named slots rise by one (R66). -/
def State.raiseSlots (s : State) (named : List SlotId) : State :=
  named.foldl (fun t i => t.setSlot i { t.slots[i] with inUse := t.slots[i].inUse + 1 }) s

/-- The in-use counts of the named slots fall by one (R66). -/
def State.lowerSlots (s : State) (named : List SlotId) : State :=
  named.foldl (fun t i => t.setSlot i { t.slots[i] with inUse := t.slots[i].inUse - 1 }) s

/-! ## The token computation (R59, R61 to R64) -/

/-- The 79-bit clear content: kind, sequence, amount and check value, most significant first (R61, R190). -/
def clearContent (key : Config.MeterKey) (kind sequence amount : Nat) : BitVec 79 :=
  let k := BitVec.ofNat 3 kind
  let q := BitVec.ofNat 27 sequence
  let a := BitVec.ofNat 20 amount
  k ++ q ++ a ++ Config.checkValue key k q a

/-- The amount field of a token: the confirmation value for KEY_CHANGE_B (R59). -/
def tokenAmount (slots : Vector KeySlot 4) (m : MeterNumber) (p : PlannedToken) : Option Nat :=
  match p.confirms with
  | none => some p.amount
  | some h =>
    match officeKeyOf slots h with
    | some key => some (Config.confirmation (Config.meterKey key m) m).toNat
    | none => none

/-- One token computation under the keys of the slots (R62, R63, R64). -/
def computeToken (slots : Vector KeySlot 4) (m : MeterNumber) (p : PlannedToken) : Option Token :=
  match officeKeyOf slots p.generation, tokenAmount slots m p with
  | some key, some amount =>
    let mk := Config.meterKey key m
    some ⟨p.kind, p.sequence, p.generation, amount,
      Config.permutation mk (clearContent mk (tokenKindNumber p.kind) p.sequence amount)⟩
  | _, _ => none

/-! ## LOAD_KEY (R68, R69) -/

/-- LOAD_KEY on receipt: check 1, then the verification goes to the cipher (R68). -/
def State.loadKeyRequest (body : List Byte) (s : State) : State :=
  match decodeLoadKey body with
  | none => s.answer .badField
  | some f => s.requestCipher (.loadKey f)

/-- LOAD_KEY (R68). -/
def execLoadKey (lane : LaneId) (tag : Tag) (body : List Byte) (s : State) : Host.Outcome State Fault Refusal :=
  .next (s.takeSupervisor .loadKey lane tag (State.loadKeyRequest body))

/-- Another slot than the named one is LOADED with the generation (check 3 of R68). -/
def generationElsewhere (slots : Vector KeySlot 4) (slot : SlotId) (g : Nat) : Bool :=
  (List.finRange 4).any fun i => i != slot && slots[i].generation == some g

/-- The verification of a LOAD_KEY completes: check 2, then checks 3 and 4 in one event; a load that passes makes the slot
CHANGING and places the key-row write (R68, R69). -/
def State.loadKeyVerified (f : LoadKeyFields) (s : State) : State :=
  let t := s.completeCipher
  if f.authentication ≠ Config.authentication s.grantKey (loadKeyMessage s.settings.officeId f) then t.answer .badAuth
  else if generationElsewhere t.slots f.slot f.generation then t.answer .duplicateKey
  else if t.slots[f.slot].inUse ≠ 0 then t.answer .keyInUse
  else
    (t.setSlot f.slot { t.slots[f.slot] with state := .changing }).place
      (.loadKey f.slot ⟨f.generation, Config.unwrap s.grantKey f.wrapped⟩)

/-- LOAD_KEY_VERIFIED (R68, R73). -/
def execLoadKeyVerified (s : State) : Host.Outcome State Fault Refusal :=
  .next (match s.cipher.busy with
    | some (.loadKey f) => s.loadKeyVerified f
    | _ => s)

/-- The key-row write of a LOAD_KEY completes: the slot becomes LOADED (R69). -/
def State.keyWritten (slot : SlotId) (k : KeyContent) (s : State) : State :=
  (({ s with memory := s.memory.writeKey slot (some k) }.setSlot slot
      { s.slots[slot] with state := .loaded k.generation k.key }).finishOp).respond .done (.keyLoaded slot k.generation)

/-- KEY_WRITE_DONE (R69). -/
def execKeyWriteDone (s : State) : Host.Outcome State Fault Refusal :=
  .next (match s.current with
    | some (.loadKey slot k) => s.keyWritten slot k
    | _ => s)

/-! ## DROP_KEY and READ_KEYS (R70, R71) -/

/-- DROP_KEY at the token unit (R70). No request can meet a CHANGING slot; one that did is answered KEY_IN_USE (log
entry 27). -/
def State.dropKeyRequest (body : List Byte) (s : State) : State :=
  match decodeDropKey body with
  | none => s.answer .badField
  | some slot =>
    match s.slots[slot].state with
    | .empty => s.respond .done (.keyDropped none)
    | .changing => s.answer .keyInUse
    | .loaded g _ =>
      if s.slots[slot].inUse ≠ 0 then s.answer .keyInUse
      else (s.setSlot slot { s.slots[slot] with state := .changing }).place (.dropKey slot g)

/-- DROP_KEY (R70). -/
def execDropKey (lane : LaneId) (tag : Tag) (body : List Byte) (s : State) : Host.Outcome State Fault Refusal :=
  .next (s.takeSupervisor .dropKey lane tag (State.dropKeyRequest body))

/-- The key-row write of a DROP_KEY completes: the slot becomes EMPTY (R70). -/
def State.keyDropped (slot : SlotId) (g : Nat) (s : State) : State :=
  (({ s with memory := s.memory.writeKey slot none }.setSlot slot
      { s.slots[slot] with state := .empty }).finishOp).respond .done (.keyDropped (some g))

/-- DROP_KEY_WRITE_DONE (R70). -/
def execDropKeyWriteDone (s : State) : Host.Outcome State Fault Refusal :=
  .next (match s.current with
    | some (.dropKey slot g) => s.keyDropped slot g
    | _ => s)

/-- READ_KEYS at the token unit (R71). -/
def State.readKeysRequest (body : List Byte) (s : State) : State :=
  match decodeEmpty body with
  | none => s.answer .badField
  | some _ => s.respond .done (.keys (s.slots.toList.map fun k => (k.generation, k.inUse)))

/-- READ_KEYS (R71). -/
def execReadKeys (lane : LaneId) (tag : Tag) (body : List Byte) (s : State) : Host.Outcome State Fault Refusal :=
  .next (s.takeSupervisor .readKeys lane tag (State.readKeysRequest body))

end Sys2Proof.Machine
end

