-- ==== Sys2Proof/Machine/Lanes.lean ====
section
/-! DEFINITION. The counter lanes (R74 to R101): admission (R79), VEND acceptance, CANCEL, COLLECT, RESUME, LANE_STATUS, and
the supervisor's OPEN_LANE, CLOSE_LANE, SET_LANE with its completion, and CLEAR_LANE_COUNT. -/

namespace Sys2Proof.Machine

open Sys2Proof

/-! ## Admission (R79) -/

/-- A lane takes LOOKUP, QUOTE, REPRINT and CANCEL while OPEN or RESTRICTED and unlocked; any other state refuses
LANE_STATE. -/
def State.admitEnquiry (s : State) (lane : LaneId) (owner : State → State) : State :=
  if (s.lane lane).unlocked then owner s else s.answer .laneState

/-- A lane takes COLLECT while OPEN or RESTRICTED and unlocked, and while BARRED. -/
def State.admitCollect (s : State) (lane : LaneId) (owner : State → State) : State :=
  if (s.lane lane).unlocked || (s.lane lane).state == .barred then owner s else s.answer .laneState

/-- A lane takes RESUME while OPEN or RESTRICTED, locked or not. -/
def State.admitResume (s : State) (lane : LaneId) (owner : State → State) : State :=
  if (s.lane lane).state == .opened || (s.lane lane).state == .restricted then owner s else s.answer .laneState

/-! ## VEND (R92, R93) -/

/-- A tag is on the lane's queue, its in-flight list or in either buffer (R93, check 6). -/
def Lane.holdsTag (l : Lane) (tag : Tag) : Bool :=
  l.queue.any (·.tag == tag) || l.inFlight.any (·.1 == tag)
    || l.foreground.any (·.tag == tag) || l.background.any (·.tag == tag)

/-- Checks 8 to 10 of R93 on decoded items, then the request joins the queue and is answered ACCEPTED. -/
def State.acceptVend (s : State) (lane : LaneId) (tag : Tag) (items : List Item) : State :=
  if lane ≠ 0 ∧ items.any Item.isService then s.answer .notSupervisor
  else
    match firstFailing meterOk items with
    | some n => s.respond .badMeterNumber (.failingItem n)
    | none =>
      match firstFailing (zoneAdmits lane (s.settingsOf lane)) items with
      | some n => s.respond .outsideZone (.failingItem n)
      | none =>
        let s' := s.updateLane lane fun l => { l with queue := l.queue ++ [⟨tag, items⟩] }
        s'.respond .accepted (.queued (s'.lane lane).queue.length)

/-- The checks of R93 in order. -/
def State.vendRequest (lane : LaneId) (tag : Tag) (body : List Byte) (s : State) : State :=
  if (s.lane lane).state ≠ .opened ∨ (s.lane lane).locked then s.answer .laneState
  else if s.office = .starting then s.answer .starting
  else if s.office = .fault then s.answer .fault
  else if s.supply = .holding then s.answer .supply
  else if s.authority.overdue then s.answer .dayOverdue
  else if 4 ≤ (s.lane lane).queue.length then s.answer .queueFull
  else if (s.lane lane).holdsTag tag then s.answer .duplicateTag
  else
    match decodeVend body with
    | none => s.answer .badField
    | some items => s.acceptVend lane tag items

/-- VEND (R93). -/
def execVend (lane : LaneId) (tag : Tag) (body : List Byte) (s : State) : Host.Outcome State Fault Refusal :=
  .next (s.takeFrame .vend lane tag (State.vendRequest lane tag body))

/-! ## CANCEL and COLLECT (R95, R99) -/

/-- CANCEL of the frame's tag (R95; log entry 14): removed from the queue, past cancelling, or nowhere on the lane. -/
def State.cancelTag (s : State) (lane : LaneId) (tag : Tag) : State :=
  let l := s.lane lane
  if l.queue.any (·.tag == tag) then
    (s.setLane lane { l with queue := l.queue.filter (·.tag != tag) }).answer .cancelled
  else if l.holdsTag tag then s.answer .tooLate
  else s.answer .notFound

/-- CANCEL at the lane bank. -/
def State.cancelRequest (lane : LaneId) (tag : Tag) (body : List Byte) (s : State) : State :=
  s.admitEnquiry lane fun t =>
    match decodeEmpty body with
    | none => t.answer .badField
    | some _ => t.cancelTag lane tag

/-- CANCEL (R95). -/
def execCancel (lane : LaneId) (tag : Tag) (body : List Byte) (s : State) : Host.Outcome State Fault Refusal :=
  .next (s.takeFrame .cancel lane tag (State.cancelRequest lane tag body))

/-- The foreground result is handed over, and the background result takes its place (R99). -/
def State.collectResult (s : State) (lane : LaneId) : State :=
  let l := s.lane lane
  match l.foreground with
  | some r =>
    (s.setLane lane { l with foreground := l.background, background := none }).respond .done (.result r.outcomes)
  | none => s.answer .noResult

/-- COLLECT at the lane bank. -/
def State.collectRequest (lane : LaneId) (body : List Byte) (s : State) : State :=
  s.admitCollect lane fun t =>
    match decodeEmpty body with
    | none => t.answer .badField
    | some _ => t.collectResult lane

/-- COLLECT (R99). -/
def execCollect (lane : LaneId) (tag : Tag) (body : List Byte) (s : State) : Host.Outcome State Fault Refusal :=
  .next (s.takeFrame .collect lane tag (State.collectRequest lane body))

/-! ## RESUME (R84) -/

/-- The code a RESUME on the lane must carry: the supervisor code on lane 0, else the operator's code. -/
def State.resumeCode (s : State) (lane : LaneId) : Option Nat :=
  if lane = 0 then some s.settings.supervisorCode else (s.lane lane).operator.bind (·.code)

/-- RESUME with a well-formed code (R84). -/
def State.resumeWith (s : State) (lane : LaneId) (code : Nat) : State :=
  if s.resumeCode lane = some code then (s.updateLane lane fun l => { l with locked := false }).answer .done
  else s.answer .badOperator

/-- RESUME at the lane bank. -/
def State.resumeRequest (lane : LaneId) (body : List Byte) (s : State) : State :=
  s.admitResume lane fun t =>
    match decodeCode body with
    | none => t.answer .badField
    | some code => t.resumeWith lane code

/-- RESUME (R84). -/
def execResume (lane : LaneId) (tag : Tag) (body : List Byte) (s : State) : Host.Outcome State Fault Refusal :=
  .next (s.takeFrame .resume lane tag (State.resumeRequest lane body))

/-! ## LANE_STATUS (R101) -/

/-- What LANE_STATUS reports of a lane. -/
def State.laneReport (s : State) (lane : LaneId) : LaneReport :=
  let l := s.lane lane
  { lane := lane
    state := l.state
    locked := l.locked
    operatorId := l.operator.map (·.id)
    count := l.count
    warning := l.warns
    idle := l.idle
    queue := l.queue.map (·.tag)
    inFlight := l.inFlight
    foreground := l.foreground.map (·.tag)
    background := l.background.map (·.tag)
    tally := l.tally
    settings := s.settingsOf lane }

/-- LANE_STATUS at the lane bank: a counter lane reports itself alone; lane 0 reports itself in every state, and lanes 1
to 7 while it is OPEN and unlocked (R101). -/
def State.laneStatusRequest (lane : LaneId) (body : List Byte) (s : State) : State :=
  match decodeLaneStatus body with
  | none => s.answer .badField
  | some none => s.respond .done (.lane (s.laneReport lane))
  | some (some named) =>
    if lane ≠ 0 then s.answer .badField
    else if named = 0 then s.respond .done (.lane (s.laneReport 0))
    else s.supervise fun t => t.respond .done (.lane (t.laneReport named))

/-- LANE_STATUS (R101). -/
def execLaneStatus (lane : LaneId) (tag : Tag) (body : List Byte) (s : State) : Host.Outcome State Fault Refusal :=
  .next (s.takeFrame .laneStatus lane tag (State.laneStatusRequest lane body))

/-! ## OPEN_LANE and CLOSE_LANE (R81 to R83) -/

/-- A lane opened with an operator: count, idle seconds and shift tally 0, lock flag clear (R81). -/
def Lane.signOn (l : Lane) (op : Operator) : Lane :=
  { l with state := .opened, locked := false, operator := some op, count := 0, idle := 0, expiryDue := false, tally := {} }

/-- OPEN_LANE for a lane of 1 to 7 (R81). -/
def State.openCounterLane (s : State) (lane : LaneId) (id code : Nat) : State :=
  if (s.lane lane).state ≠ .closed then s.answer .laneState
  else (s.updateLane lane (·.signOn ⟨id, some code⟩)).answer .done

/-- OPEN_LANE for lane 0 (R82): lane 0 keeps no operator code of its own. -/
def State.openSupervisorLane (s : State) (id code : Nat) : State :=
  if (s.lane 0).state ≠ .closed then s.answer .laneState
  else if code ≠ s.settings.supervisorCode then s.answer .badOperator
  else (s.updateLane 0 (·.signOn ⟨id, none⟩)).answer .done

/-- An OPEN_LANE request whose lane field names lane 0 (log entry 15). -/
def namesLaneZero (body : List Byte) : Bool :=
  body.head? == some 0

/-- OPEN_LANE at the lane bank: for lane 0 it is taken while lane 0 is CLOSED as well (R79, R82). -/
def State.openLaneRequest (body : List Byte) (s : State) : State :=
  if s.supervisorOpen || ((s.lane 0).state == .closed && namesLaneZero body) then
    match decodeOpenLane body with
    | none => s.answer .badField
    | some (lane, id, code) =>
      if lane = 0 then s.openSupervisorLane id code else s.openCounterLane lane id code
  else s.answer .laneState

/-- OPEN_LANE (R81, R82). -/
def execOpenLane (lane : LaneId) (tag : Tag) (body : List Byte) (s : State) : Host.Outcome State Fault Refusal :=
  .next (s.takeFrame .openLane lane tag (State.openLaneRequest body))

/-- A lane is quiet: empty queue, empty in-flight list, both buffers empty (R78, R83). -/
def Lane.quiet (l : Lane) : Bool :=
  l.queue.isEmpty && l.inFlight.isEmpty && l.foreground.isNone && l.background.isNone

/-- A lane closed (R83): its tally and count are kept. -/
def Lane.signOff (l : Lane) : Lane :=
  { l with state := .closed, locked := false, operator := none, idle := 0, expiryDue := false }

/-- CLOSE_LANE of a named lane (R83). -/
def State.closeLane (s : State) (named : LaneId) : State :=
  let l := s.lane named
  if l.state = .closed then s.answer .laneState
  else if !l.quiet then s.answer .laneBusy
  else (s.setLane named l.signOff).respond .done (.shiftTally l.tally)

/-- CLOSE_LANE at the lane bank. -/
def State.closeLaneRequest (body : List Byte) (s : State) : State :=
  match decodeLane body with
  | none => s.answer .badField
  | some named => s.closeLane named

/-- CLOSE_LANE (R83). -/
def execCloseLane (lane : LaneId) (tag : Tag) (body : List Byte) (s : State) : Host.Outcome State Fault Refusal :=
  .next (s.takeSupervisor .closeLane lane tag (State.closeLaneRequest body))

/-! ## SET_LANE (R78) -/

/-- Check 2 of R78: a counter lane is CLOSED; lane 0 is quiet. -/
def State.laneSettable (s : State) (named : LaneId) : Bool :=
  if named = 0 then (s.lane named).quiet else (s.lane named).state == .closed

/-- SET_LANE at the lane bank. -/
def State.setLaneRequest (body : List Byte) (s : State) : State :=
  match decodeSetLane body with
  | none => s.answer .badField
  | some (named, settings, namesEngine) =>
    if s.laneSettable named then s.place (.setLane named settings namesEngine) else s.answer .laneState

/-- SET_LANE (R78). -/
def execSetLane (lane : LaneId) (tag : Tag) (body : List Byte) (s : State) : Host.Outcome State Fault Refusal :=
  .next (s.takeSupervisor .setLane lane tag (State.setLaneRequest body))

/-- The settings a lane takes: a mask that names no engine leaves the mask in force (R78). -/
def LaneSettings.taking (inForce given : LaneSettings) (namesEngine : Bool) : LaneSettings :=
  if namesEngine then given else { given with maskA := inForce.maskA, maskB := inForce.maskB }

/-- The lane-settings row that a SET_LANE writes: the current settings of every lane with the named lane's new ones (R75,
R78). -/
def State.laneSettingsAfter (s : State) (named : LaneId) (given : LaneSettings) (namesEngine : Bool) :
    Vector LaneSettings 8 :=
  s.laneSettings.set named ((s.settingsOf named).taking given namesEngine)

/-- The lane-settings row write of a SET_LANE completes (R78). -/
def State.laneSettingsWritten (named : LaneId) (given : LaneSettings) (namesEngine : Bool) (s : State) : State :=
  let v := s.laneSettingsAfter named given namesEngine
  ({ s with memory := s.memory.writeLanes v, laneSettings := v }.finishOp).respond .done
    (.laneSettings ((s.settingsOf named).taking given namesEngine))

/-- LANE_SETTINGS_WRITE_DONE (R78). -/
def execLaneSettingsWriteDone (s : State) : Host.Outcome State Fault Refusal :=
  .next (match s.current with
    | some (.setLane named given namesEngine) => s.laneSettingsWritten named given namesEngine
    | _ => s)

/-! ## CLEAR_LANE_COUNT (R91) -/

/-- A lane whose count is cleared; a RESTRICTED or BARRED lane comes back OPEN and locked (R91; log entry 19 for its idle
seconds). -/
def Lane.clearCount (l : Lane) : Lane :=
  if l.state = .restricted ∨ l.state = .barred then
    { l with count := 0, state := .opened, locked := true, idle := 0, expiryDue := false }
  else { l with count := 0 }

/-- CLEAR_LANE_COUNT at the lane bank. -/
def State.clearLaneCountRequest (body : List Byte) (s : State) : State :=
  match decodeLane body with
  | none => s.answer .badField
  | some named => (s.updateLane named Lane.clearCount).respond .done (.priorState (s.lane named).state)

/-- CLEAR_LANE_COUNT (R91). -/
def execClearLaneCount (lane : LaneId) (tag : Tag) (body : List Byte) (s : State) : Host.Outcome State Fault Refusal :=
  .next (s.takeSupervisor .clearLaneCount lane tag (State.clearLaneCountRequest body))

end Sys2Proof.Machine
end

