-- ==== Sys2Proof/Machine/Records.lean ====
section
/-! DEFINITION. Meter account records (R1 to R29, R50 to R52): the receipt checks of the record requests, LOOKUP, REPRINT and
QUOTE with their reads, the supervisor record operations with their completion at the store, and the retaking of
a supervisor request that waited for the scrubber. -/

namespace Sys2Proof.Machine

open Sys2Proof

/-! ## LOOKUP, REPRINT and QUOTE on receipt (R14, R50) -/

/-- Checks 2 and 3 of R14, then the read is placed with the store. -/
def State.placeCounterRead (s : State) (lane : LaneId) (m : MeterNumber) (query : CounterQuery) : State :=
  if !meterOk m then s.answer .badMeterNumber
  else if !zoneAdmits lane (s.settingsOf lane) m then s.answer .outsideZone
  else s.place (.counterRead lane query)

/-- LOOKUP on receipt. -/
def State.lookupRequest (lane : LaneId) (body : List Byte) (s : State) : State :=
  s.admitEnquiry lane fun t =>
    match decodeMeter body with
    | none => t.answer .badField
    | some m => t.placeCounterRead lane m (.lookup m)

/-- LOOKUP (R27). -/
def execLookup (lane : LaneId) (tag : Tag) (body : List Byte) (s : State) : Host.Outcome State Fault Refusal :=
  .next (s.takeFrame .lookup lane tag (State.lookupRequest lane body))

/-- REPRINT on receipt. -/
def State.reprintRequest (lane : LaneId) (body : List Byte) (s : State) : State :=
  s.admitEnquiry lane fun t =>
    match decodeMeter body with
    | none => t.answer .badField
    | some m => t.placeCounterRead lane m (.reprint m)

/-- REPRINT (R28). -/
def execReprint (lane : LaneId) (tag : Tag) (body : List Byte) (s : State) : Host.Outcome State Fault Refusal :=
  .next (s.takeFrame .reprint lane tag (State.reprintRequest lane body))

/-- QUOTE on receipt. -/
def State.quoteRequest (lane : LaneId) (body : List Byte) (s : State) : State :=
  s.admitEnquiry lane fun t =>
    match decodeQuote body with
    | none => t.answer .badField
    | some (m, tender) => t.placeCounterRead lane m (.quote m tender)

/-- QUOTE (R50). -/
def execQuote (lane : LaneId) (tag : Tag) (body : List Byte) (s : State) : Host.Outcome State Fault Refusal :=
  .next (s.takeFrame .quote lane tag (State.quoteRequest lane body))

/-! ## Reads at the store (R16, R27) -/

/-- Looks a meter up and reads its row with the effects of R149 to R151: the row and its record, or NO_METER or
DAMAGED. A row in condition RECORD that held the free mark would answer NO_METER (log entry 27). -/
def State.readMeter (s : State) (m : MeterNumber) (d : Decay) : State × Except ResultCode (Nat × MeterRecord) :=
  match s.store.rowOf m with
  | none => (s, .error .noMeter)
  | some n =>
    if s.store.damaged.contains n then (s, .error .damaged)
    else
      match s.reading n d with
      | .noNumber => (s.readRecordRow n d, .error .noMeter)
      | .damaged => (s.readRecordRow n d, .error .damaged)
      | .blank => (s.readRecordRow n d, .error .noMeter)
      | .record r => (s.readRecordRow n d, .ok (n, r))

/-- The record that LOOKUP shows: with virtual rollover, but a RETIRED record as stored (R8). -/
def MeterRecord.shown (r : MeterRecord) (month : Nat) : MeterRecord :=
  if r.status = .retired then r else r.rollover month

/-- The zone hit of a LOOKUP reply: 0 on lane 0 (R27, R189). -/
def State.hitOf (s : State) (lane : LaneId) (m : MeterNumber) : Nat :=
  if lane = 0 then 0 else (zoneHit (s.settingsOf lane) m).getD 0

/-- The reply of a counter read that found its record (R27, R28, R50, R51). -/
def State.counterReply (s : State) (lane : LaneId) (n : Nat) (r : MeterRecord) : CounterQuery → State
  | .lookup m => s.respond .done (.record ⟨n, r.shown s.authority.month, s.hitOf lane m⟩)
  | .reprint _ =>
    match r.lastSale with
    | some g => s.respond .done (.sale g)
    | none => s.answer .notFound
  | .quote _ tender =>
    if r.status ≠ .active then s.answer .meterState
    else
      let rolled := r.rollover s.authority.month
      s.respond .done (.quote (quoteOutcome (s.tariff.snapshot rolled.tariffClass) rolled tender))

/-- The meter a counter read names. -/
def CounterQuery.meter : CounterQuery → MeterNumber
  | .lookup m => m
  | .reprint m => m
  | .quote m _ => m

/-- A counter read completes. -/
def State.counterRead (lane : LaneId) (query : CounterQuery) (d : Decay) (s : State) : State :=
  match s.readMeter query.meter d with
  | (t, .error code) => t.finishOp.answer code
  | (t, .ok (n, r)) => t.finishOp.counterReply lane n r query

/-- COUNTER_READ_DONE (R27, R28, R51). -/
def execCounterReadDone (decay : Decay) (s : State) : Host.Outcome State Fault Refusal :=
  .next (match s.current with
    | some (.counterRead lane query) => s.counterRead lane query decay
    | _ => s)

/-! ## Supervisor record requests on receipt (R14, R15, R23, R24) -/

/-- Checks 1 and 2 of R14, then `owner` goes on. -/
def State.receiveRecord {α : Type} (s : State) (fields : Option α) (meter : α → MeterNumber) (owner : α → State) : State :=
  match fields with
  | none => s.answer .badField
  | some f => if meterOk (meter f) then owner f else s.answer .badMeterNumber

/-- ENROL on receipt: it does not consult the lock table (R17). -/
def State.enrolRequest (body : List Byte) (s : State) : State :=
  s.receiveRecord (decodeEnrol body) (·.meter) fun f => s.place (.record (.enrol f))

/-- ENROL (R17). -/
def execEnrol (lane : LaneId) (tag : Tag) (body : List Byte) (s : State) : Host.Outcome State Fault Refusal :=
  .next (s.takeSupervisor .enrol lane tag (State.enrolRequest body))

/-- AMEND on receipt (R18). -/
def State.amendRequest (body : List Byte) (s : State) : State :=
  s.receiveRecord (decodeAmend body) (·.meter) fun f => s.consultLocks (.amend f)

/-- AMEND (R18). -/
def execAmend (lane : LaneId) (tag : Tag) (body : List Byte) (s : State) : Host.Outcome State Fault Refusal :=
  .next (s.takeSupervisor .amend lane tag (State.amendRequest body))

/-- RETIRE on receipt (R20). -/
def State.retireRequest (body : List Byte) (s : State) : State :=
  s.receiveRecord (decodeMeter body) id fun m => s.consultLocks (.retire m)

/-- RETIRE (R20). -/
def execRetire (lane : LaneId) (tag : Tag) (body : List Byte) (s : State) : Host.Outcome State Fault Refusal :=
  .next (s.takeSupervisor .retire lane tag (State.retireRequest body))

/-- REINSTATE on receipt (R21). -/
def State.reinstateRequest (body : List Byte) (s : State) : State :=
  s.receiveRecord (decodeMeter body) id fun m => s.consultLocks (.reinstate m)

/-- REINSTATE (R21). -/
def execReinstate (lane : LaneId) (tag : Tag) (body : List Byte) (s : State) : Host.Outcome State Fault Refusal :=
  .next (s.takeSupervisor .reinstate lane tag (State.reinstateRequest body))

/-- PURGE on receipt (R22). -/
def State.purgeRequest (body : List Byte) (s : State) : State :=
  s.receiveRecord (decodeMeter body) id fun m => s.consultLocks (.purge m)

/-- PURGE (R22). -/
def execPurge (lane : LaneId) (tag : Tag) (body : List Byte) (s : State) : Host.Outcome State Fault Refusal :=
  .next (s.takeSupervisor .purge lane tag (State.purgeRequest body))

/-- PURGE_ROW on receipt: it does not consult the lock table (R23). -/
def State.purgeRowRequest (body : List Byte) (s : State) : State :=
  match decodePurgeRow body with
  | none => s.answer .badField
  | some n => s.place (.record (.purgeRow n))

/-- PURGE_ROW (R23). -/
def execPurgeRow (lane : LaneId) (tag : Tag) (body : List Byte) (s : State) : Host.Outcome State Fault Refusal :=
  .next (s.takeSupervisor .purgeRow lane tag (State.purgeRowRequest body))

/-- RESTORE on receipt: its verification goes to the cipher (R24). -/
def State.restoreRequest (body : List Byte) (s : State) : State :=
  s.receiveRecord (decodeRestore body) (·.image.meter) fun f => s.requestCipher (.restore f)

/-- RESTORE (R24). -/
def execRestore (lane : LaneId) (tag : Tag) (body : List Byte) (s : State) : Host.Outcome State Fault Refusal :=
  .next (s.takeSupervisor .restore lane tag (State.restoreRequest body))

/-- The verification of a RESTORE completes (R24, R73). -/
def State.restoreVerified (f : RestoreFields) (s : State) : State :=
  if f.authentication = Config.authentication s.grantKey f.message then s.completeCipher.consultLocks (.restore f)
  else s.completeCipher.answer .badAuth

/-- RESTORE_VERIFIED (R24). -/
def execRestoreVerified (s : State) : Host.Outcome State Fault Refusal :=
  .next (match s.cipher.busy with
    | some (.restore f) => s.restoreVerified f
    | _ => s)

/-- A supervisor request that waits on a meter the scrubber no longer holds is taken again (R15, R111). -/
def State.retakeSupervisor (s : State) : State :=
  match s.locks.supervisor with
  | some op =>
    if s.locks.scrubber.isSome ∧ s.locks.scrubber = op.lockMeter then s
    else { s with locks := { s.locks with supervisor := none } }.consultLocks op
  | none => s

/-- WAITING_SUPERVISOR_RETAKEN (R15). -/
def execWaitingSupervisorRetaken (s : State) : Host.Outcome State Fault Refusal :=
  .next s.retakeSupervisor

/-! ## The supervisor record operations at the store (R16 to R26) -/

/-- The record ENROL creates (R17). -/
def EnrolFields.record (f : EnrolFields) (month : Nat) : MeterRecord :=
  { meter := f.meter, status := .active, tariffClass := f.tariffClass, keyGeneration := f.keyGeneration
    pendingGeneration := none, sequence := f.sequenceFloor, monthStamp := month, monthEnergy := 0, chargePaid := 0
    allowanceIssued := false, arrears := f.arrears, recoveryRate := f.recoveryRate, carry := 0, lastSale := none }

/-- The pending generation AMEND leaves (R5, R19). -/
def AmendFields.pending (f : AmendFields) (r : MeterRecord) : Option Nat :=
  if f.removePending then none
  else
    match f.pendingGeneration with
    | some g => if g = r.keyGeneration then none else some g
    | none => r.pendingGeneration

/-- The record AMEND writes; a RETIRED record does not suit (R18, R19). -/
def AmendFields.amend (f : AmendFields) (r : MeterRecord) : Option MeterRecord :=
  if r.status = .retired then none
  else
    some { r with
      tariffClass := f.tariffClass.getD r.tariffClass
      arrears := f.arrears.getD r.arrears
      recoveryRate := f.recoveryRate.getD r.recoveryRate
      status := f.status.getD r.status
      pendingGeneration := f.pending r }

/-- The record RETIRE writes (R20). -/
def retireEdit (r : MeterRecord) : Option MeterRecord :=
  if r.status = .retired then none else some { r with status := .retired }

/-- The record REINSTATE writes (R21). -/
def reinstateEdit (r : MeterRecord) : Option MeterRecord :=
  if r.status = .retired then some { r with status := .active } else none

/-- A row written with a record, with the store's other structures as they are. -/
def State.writeRecord (s : State) (n : Nat) (r : MeterRecord) : State :=
  { s with memory := s.memory.writeRecord n r }

/-- AMEND, RETIRE and REINSTATE at the store: steps 1 to 7 of R16. -/
def State.editRecord (s : State) (m : MeterNumber) (d : Decay) (edit : MeterRecord → Option MeterRecord) : State :=
  match s.readMeter m d with
  | (t, .error code) => t.finishOp.answer code
  | (t, .ok (n, r)) =>
    match edit r with
    | some r' => (t.writeRecord n r').finishOp.answer .done
    | none => t.finishOp.answer .meterState

/-- PURGE at the store (R22). -/
def State.purgeRecord (s : State) (m : MeterNumber) (d : Decay) : State :=
  match s.readMeter m d with
  | (t, .error code) => t.finishOp.answer code
  | (t, .ok (n, r)) =>
    if r.status = .retired then
      ({ t with memory := t.memory.writeFree n, store := (t.store.unindexRow n).release n }.finishOp).answer .done
    else t.finishOp.answer .meterState

/-- A new record's row is written: the row becomes RECORD and the index entry is added (R17, R26). -/
def State.createRecord (s : State) (n : Nat) (r : MeterRecord) : State :=
  { s.writeRecord n r with store := (s.store.setCondition n .record).indexMeter r.meter n }

/-- ENROL at the store, in the row it took, if it took one (R17). -/
def State.enrolRecord (s : State) (f : EnrolFields) (row : Option Nat) : State :=
  match row with
  | some n => ((s.createRecord n (f.record s.authority.month)).finishOp).respond .done (.row n)
  | none =>
    if (s.store.rowOf f.meter).isSome then s.finishOp.answer .duplicateMeter else s.finishOp.answer .tableFull

/-- PURGE_ROW at the store (R23). -/
def State.purgeOrphan (s : State) (n : Nat) : State :=
  if s.store.condition n ≠ .orphan then s.finishOp.answer .notFound
  else if s.rowInHand n then s.finishOp.answer .meterBusy
  else
    ({ s with memory := s.memory.writeFree n, store := (s.store.release n).unlistOrphan n }.finishOp).answer .done

/-- The sequence a RESTORE over a row writes: the larger of the stored and the image's, or the image's when the stored
word is uncorrectable or the row holds no record (R25, R26). -/
def State.restoredSequence (s : State) (n : Nat) (d : Decay) (image : Nat) : Nat :=
  match (s.memory.meterRow n).content with
  | some r => if (s.wordsAt n d).sequenceKnown then max r.sequence image else image
  | none => image

/-- The image RESTORE writes into a row that it reads first. -/
def State.restoredImage (s : State) (f : RestoreFields) (n : Nat) (d : Decay) : MeterRecord :=
  let image := adjustImage s.authority.month f.image
  { image with sequence := s.restoredSequence n d image.sequence }

/-- RESTORE over the indexed row (R25). -/
def State.restoreIndexed (s : State) (f : RestoreFields) (n : Nat) (d : Decay) : State :=
  let r := s.restoredImage f n d
  let t := (s.countErrors (s.wordsAt n d).corrections).writeRecord n r
  ({ t with store := t.store.undamage n }.finishOp).respond .done (.sequence r.sequence)

/-- RESTORE into a named orphan row (R26). -/
def State.restoreOrphan (s : State) (f : RestoreFields) (n : Nat) (d : Decay) : State :=
  let r := s.restoredImage f n d
  let t := (s.countErrors (s.wordsAt n d).corrections).createRecord n r
  ({ t with store := t.store.unlistOrphan n }.finishOp).respond .done (.rowAndSequence n r.sequence)

/-- RESTORE at the store (R25, R26). -/
def State.restoreRecord (s : State) (f : RestoreFields) (row : Option Nat) (d : Decay) : State :=
  match s.store.rowOf f.image.meter, f.target, row with
  | some _, some _, _ => s.finishOp.answer .badField
  | some n, none, _ => s.restoreIndexed f n d
  | none, some n, _ =>
    if s.store.condition n ≠ .orphan then s.finishOp.answer .notFound
    else if s.rowInHand n then s.finishOp.answer .meterBusy
    else s.restoreOrphan f n d
  | none, none, some n =>
    let r := adjustImage s.authority.month f.image
    ((s.createRecord n r).finishOp).respond .done (.rowAndSequence n r.sequence)
  | none, none, none => s.finishOp.answer .tableFull

/-- A supervisor record operation completes at the store. -/
def State.recordDone (op : RecordOp) (row : Option Nat) (d : Decay) (s : State) : State :=
  match op with
  | .enrol f => s.enrolRecord f row
  | .amend f => s.editRecord f.meter d f.amend
  | .retire m => s.editRecord m d retireEdit
  | .reinstate m => s.editRecord m d reinstateEdit
  | .purge m => s.purgeRecord m d
  | .purgeRow n => s.purgeOrphan n
  | .restore f => s.restoreRecord f row d

/-- The row that the operation in progress took as it was taken. -/
def State.takenRow (s : State) : Option Nat :=
  s.store.inProgress.bind (·.row)

/-- RECORD_WRITE_DONE (R16): the whole operation, from look-up to the completed write or the refusal. -/
def execRecordWriteDone (decay : Decay) (s : State) : Host.Outcome State Fault Refusal :=
  .next (match s.current with
    | some (.record op) => s.recordDone op s.takenRow decay
    | _ => s)

end Sys2Proof.Machine
end

