-- ==== Sys2Proof/Machine/Engines.lean ====
section
/-! DEFINITION. The vend engines and the dispatcher (R102 to R126): eligibility and choice, DISPATCH, CLAIM_RETAKEN, the
stages of an item with their completions, the four writes of a commit (R158, R159), the close of an item, the
end of a request, and ENABLE_ENGINE_B. -/

namespace Sys2Proof.Machine

open Sys2Proof

/-! ## The end of an item and of a request (R98, R100, R112, R121 to R123) -/

/-- A count of the shift tally, held at 4,294,967,295 (R100). -/
def tallyCount (n : Nat) : Nat := holdAt 4294967295 n

/-- The refusals that cost the lane one (R87, R100). -/
def RefusalCode.costs : RefusalCode → Bool
  | .noMeter => true
  | .meterState => true
  | .limitLow => true
  | .limitHigh => true
  | .nothingDue => true
  | _ => false

/-- A DONE item in the shift tally, with its group size (R100). -/
def ShiftTally.addDone (t : ShiftTally) (item : Item) (size : Nat) : ShiftTally :=
  match item with
  | .purchase _ tender =>
    { t with money := t.money + tender, purchases := tallyCount (t.purchases + 1), tokens := tallyCount (t.tokens + size) }
  | .service _ _ _ => { t with tokens := tallyCount (t.tokens + size) }

/-- A DONE item's report to its lane: the tally, and one off the count for a tender above 0 (R100). -/
def Lane.reportDone (l : Lane) (item : Item) (size : Nat) : Lane :=
  let l1 := { l with tally := l.tally.addDone item size }
  match item with
  | .purchase _ tender => if 0 < tender then l1.lowerCount else l1
  | .service _ _ _ => l1

/-- A REFUSED item's report to its lane (R100). -/
def State.reportRefused (s : State) (lane : LaneId) (code : RefusalCode) : State :=
  let s1 := s.updateLane lane fun l => { l with tally := { l.tally with refused := tallyCount (l.tally.refused + 1) } }
  if code.costs then s1.raiseCount lane 1 else s1

/-- A result handed to a lane: the tag leaves the in-flight list, and the result takes the foreground buffer, or the
background when that is full (R98). -/
def Lane.placeResult (l : Lane) (e : EngineId) (r : VendResult) : Lane :=
  let l1 := { l with inFlight := l.inFlight.filter (· != (r.tag, e)) }
  if l.foreground.isNone then { l1 with foreground := some r } else { l1 with background := some r }

/-- The state of an engine that holds no request (R104, R122). -/
def restingEngine (e : EngineId) (supply : Supply) : Engine :=
  if e = .b ∧ supply ≠ .mains then .parked else .idle

/-- The engine ends its request (R122). -/
def State.endRequest (s : State) (e : EngineId) (b : BusyEngine) : State :=
  (s.updateLane b.lane (·.placeResult e ⟨b.tag, b.outcomes⟩)).setEngine e (restingEngine e s.supply)

/-- Every later item of the request skipped with a cause (R121, R123). -/
def BusyEngine.skipRest (b : BusyEngine) (cause : SkipCause) : BusyEngine :=
  { b with outcomes := b.outcomes ++ List.replicate (b.items.length - b.item) (.skipped cause), item := b.items.length }

/-- The engine begins its current item with its working values cleared and claims the meter; past the last item it
ends the request (R102, R110, R112). -/
def State.startItem (s : State) (e : EngineId) (b : BusyEngine) : State :=
  match b.items[b.item]? with
  | some i => (s.setEngine e (.busy { b with stage := .claim, work := {} })).claim e i.meter
  | none => s.endRequest e b

/-- The end of an item with its outcome: later items are skipped after a refusal (R121) or in HOLDING (R123; log entry 13
for both at once), else the next item is claimed. -/
def State.endItem (s : State) (e : EngineId) (b : BusyEngine) (outcome : ItemOutcome) : State :=
  let b1 := { b with outcomes := b.outcomes ++ [outcome], item := b.item + 1 }
  match outcome with
  | .refused _ => s.endRequest e (b1.skipRest .priorRefusal)
  | _ => if s.supply = .holding then s.endRequest e (b1.skipRest .supply) else s.startItem e b1

/-- A stage refuses the item: the lock is released and the close reported (R121). Slot counts that the item raised and
lowers again in this one event leave no trace. -/
def State.refuseItem (s : State) (e : EngineId) (b : BusyEngine) (code : RefusalCode) : State :=
  ((s.releaseLock e).reportRefused b.lane code).endItem e b (.refused code)

/-! ## The dispatcher (R105 to R108) -/

/-- A lane's waiting results (R74). -/
def Lane.waitingResults (l : Lane) : Nat :=
  l.foreground.isSome.toNat + l.background.isSome.toNat

/-- Conditions 6 and 7 of R105 on a lane's settings. -/
def LaneSettings.admits (st : LaneSettings) (supply : Supply) (e : EngineId) : Bool :=
  match supply with
  | .mains => if e = .a then st.maskA else st.maskB
  | .battery => st.batteryService && e == .a
  | .holding => false

/-- A lane is eligible for an engine (R105). -/
def State.eligible (s : State) (e : EngineId) (lane : LaneId) : Bool :=
  s.office == .ready && s.engines.get e == .idle && (s.lane lane).state == .opened
    && !(s.lane lane).queue.isEmpty && (s.lane lane).inFlight.length + (s.lane lane).waitingResults < 2
    && (s.settingsOf lane).admits s.supply e

/-- The lanes counted upward from the one after the last served, ending with it (R106). -/
def rotation (last : LaneId) : List LaneId :=
  (List.finRange 8).map fun k => last + 1 + k

/-- The choice for an engine at one priority level. -/
def State.chooseAt (s : State) (e : EngineId) (p : Fin 4) : Option LaneId :=
  (rotation s.lastServed[p]).find? fun l => s.eligible e l && (s.settingsOf l).priority == p

/-- The choice for an engine: the highest priority first (R106). -/
def State.choose (s : State) (e : EngineId) : Option LaneId :=
  ([3, 2, 1, 0] : List (Fin 4)).findSome? (s.chooseAt e)

/-- A dispatch of the head of a lane's queue to an engine (R97, R106, R107). -/
def State.dispatchTo (s : State) (e : EngineId) (lane : LaneId) : State :=
  match (s.lane lane).queue with
  | [] => s
  | r :: rest =>
    let s1 := s.updateLane lane fun l => { l with queue := rest, inFlight := l.inFlight ++ [(r.tag, e)] }
    let s2 := { s1 with lastServed := s1.lastServed.set (s.settingsOf lane).priority lane }
    s2.startItem e ⟨lane, r.tag, r.items, 0, .claim, [], {}⟩

/-- One dispatch: engine A's choice first (R108). -/
def State.dispatch (s : State) : State :=
  match s.choose .a with
  | some l => s.dispatchTo .a l
  | none =>
    match s.choose .b with
    | some l => s.dispatchTo .b l
    | none => s

/-- DISPATCH (R107). -/
def execDispatch (s : State) : Host.Outcome State Fault Refusal :=
  .next s.dispatch

/-- The first waiting claim on a free meter is granted and leaves the list (R110). -/
def State.retakeClaim (s : State) : State :=
  match s.locks.waiting.find? fun c => s.locks.free c.2 with
  | some c => { s with locks := { s.locks with waiting := s.locks.waiting.erase c } }.grantClaim c.1 c.2
  | none => s

/-- CLAIM_RETAKEN (R110). -/
def execClaimRetaken (s : State) : Host.Outcome State Fault Refusal :=
  .next s.retakeClaim

/-! ## Stage 6: what an item commits (R115, R116, R119, R135, R158) -/

/-- The tender of an item: 0 for a service item. -/
def Item.tender : Item → Nat
  | .purchase _ t => t
  | .service _ _ _ => 0

/-- The working copy with the values of a completed calculation; a service item has none (R115, R116). -/
def MeterRecord.priced (r : MeterRecord) : Option Calculation → MeterRecord
  | some v =>
    { r with arrears := v.arrears, chargePaid := v.chargePaid, monthEnergy := v.monthEnergy, carry := v.carry
             allowanceIssued := v.allowanceIssued }
  | none => r

/-- The record with a group as its last sale and its sequence; an empty group leaves both (R4, R57). -/
def MeterRecord.withGroup (r : MeterRecord) (tokens : List Token) (tender paid : Nat) : MeterRecord :=
  match tokens.getLast? with
  | some t => { r with sequence := t.sequence, lastSale := some ⟨tokens, tender, paid⟩ }
  | none => r

/-- The record after its key change pair, when it holds a pending generation (R5, R58). -/
def MeterRecord.rekeyed (r : MeterRecord) : MeterRecord :=
  match r.pendingGeneration with
  | some h => { r with keyGeneration := h, pendingGeneration := none }
  | none => r

/-- The new record image of an item (R115, R116). The working copy already carries the item's month as its stamp. -/
def WorkingValues.image (w : WorkingValues) (r : MeterRecord) (tender : Nat) : MeterRecord :=
  (((r.priced w.calculation).withGroup w.tokens tender ((w.calculation.map (·.bought)).getD 0)).rekeyed)

/-- The day-tally increments of an item (R135). -/
def WorkingValues.increments (w : WorkingValues) (tender : Nat) : DayTally :=
  match w.calculation with
  | some v =>
    { money := tender, arrears := v.recovered, charge := v.collected, energyCost := v.energyCost, paidEnergy := v.bought
      allowanceEnergy := v.allowance.getD 0, purchases := 1, services := 0, tokens := w.tokens.length }
  | none => { services := 1, tokens := w.tokens.length }

/-- The commit marker of an item: its count is the one after the engine's count as the marker is placed (R158). -/
def WorkingValues.marker (w : WorkingValues) (item : Item) (r : MeterRecord) (n : Nat) (count : BitVec 32) : Marker :=
  { row := n, image := w.image r item.tender, tender := item.tender, increments := w.increments item.tender
    count := count + 1 }

/-- The engine goes on with its group: it requests the next token, or enters COMMIT and places its marker (R118, R119). -/
def State.continueTokens (s : State) (e : EngineId) (b : BusyEngine) : State :=
  match b.items[b.item]?, b.work.planned, b.work.record, b.work.row with
  | some i, p :: _, _, _ => (s.setEngine e (.busy { b with stage := .tokens })).requestCipher (.token e i.meter p)
  | some i, [], some r, some n =>
    (s.setEngine e (.busy { b with stage := .commit })).place
      (.commitMarker e (b.work.marker i r n (s.authority.commitCounts.get e)))
  | _, _, _, _ => s.setEngine e (.busy b)

/-! ## Stages 2 to 4 (R114 to R117) -/

/-- Stage 3 and 4's decisions on a purchase item (R115, R117). -/
def State.preparePurchase (s : State) (w : WorkingValues) (r : MeterRecord) (tender : Nat) :
    Except RefusalCode WorkingValues :=
  match s.tariff.snapshot r.tariffClass with
  | none => .error .classUndefined
  | some c =>
    match neededSlots s.slots r with
    | none => .error .keyUnavailable
    | some named =>
      match calculate c r tender with
      | .error code => .error code
      | .ok v =>
        if !sequenceRoom r.sequence (purchaseGroup r v).length then .error .sequenceExhausted
        else if s.authority.available < tender then .error .noAuthority
        else
          .ok { w with record := some r, snapshot := some c, calculation := some v
                       planned := numberGroup r r.sequence (purchaseGroup r v), reserved := tender, slots := named }

/-- Stage 3's decisions on a service item (R116). -/
def State.prepareService (s : State) (w : WorkingValues) (r : MeterRecord) (kind : TokenKind) (amount : Nat) :
    Except RefusalCode WorkingValues :=
  match neededSlots s.slots r with
  | none => .error .keyUnavailable
  | some named =>
    if !sequenceRoom r.sequence (serviceGroup r kind amount).length then .error .sequenceExhausted
    else
      .ok { w with record := some r, planned := numberGroup r r.sequence (serviceGroup r kind amount), slots := named }

/-- Stages 3 and 4 of an item on its working copy. -/
def State.prepare (s : State) (w : WorkingValues) (r : MeterRecord) : Item → Except RefusalCode WorkingValues
  | .purchase _ tender => s.preparePurchase w r tender
  | .service _ kind amount => s.prepareService w r kind amount

/-- The reservation of stage 4, with the low-mark rule in the same event (R131, R133). -/
def State.reserve (s : State) (amount : Nat) : State :=
  State.noteAuthority s { s with authority := { s.authority with reserved := s.authority.reserved + amount } }

/-- The item passes stages 2 to 4: the slot counts rise, the tender is reserved, and stage 5 begins (R115 to R118). -/
def State.passItem (s : State) (e : EngineId) (b : BusyEngine) (w : WorkingValues) : State :=
  ((s.raiseSlots w.slots).reserve w.reserved).continueTokens e { b with stage := .tokens, work := w }

/-- The checks of stage 2 on a record that was read (R114), then stages 3 and 4. -/
def State.checkItem (s : State) (e : EngineId) (b : BusyEngine) (item : Item) (n : Nat) (r : MeterRecord) : State :=
  if r.status ≠ .active then s.refuseItem e b .meterState
  else if s.authority.overdue then s.refuseItem e b .dayOverdue
  else
    match s.prepare { b.work with row := some n } (r.rollover b.work.month) item with
    | .error code => s.refuseItem e b code
    | .ok w => s.passItem e b w

/-- The store answers an engine's read (R114). -/
def State.itemRead (e : EngineId) (m : MeterNumber) (d : Decay) (s : State) : State :=
  match s.busyEngine e with
  | none => s.finishOp
  | some b =>
    match b.items[b.item]? with
    | none => s.finishOp
    | some item =>
      match s.readMeter m d with
      | (t, .error .damaged) => t.finishOp.refuseItem e b .damaged
      | (t, .error _) => t.finishOp.refuseItem e b .noMeter
      | (t, .ok (n, r)) => t.finishOp.checkItem e b item n r

/-- ITEM_READ_DONE (R114). -/
def execItemReadDone (decay : Decay) (s : State) : Host.Outcome State Fault Refusal :=
  .next (match s.current with
    | some (.itemRead e m) => s.itemRead e m decay
    | _ => s)

/-! ## Stage 5 (R118) -/

/-- The engine receives a token's digits and goes on (R64, R118). -/
def State.receiveToken (s : State) (e : EngineId) (t : Token) : State :=
  match s.busyEngine e with
  | some b =>
    s.continueTokens e { b with work := { b.work with planned := b.work.planned.drop 1, tokens := b.work.tokens ++ [t] } }
  | none => s

/-- A token computation completes at the cipher (R64, R73). The item's slot counts hold the keys it needs; a computation
whose key is missing would not complete (log entry 27). -/
def State.tokenComputed (e : EngineId) (m : MeterNumber) (p : PlannedToken) (s : State) : State :=
  match computeToken s.slots m p with
  | some t => s.completeCipher.receiveToken e t
  | none => s

/-- TOKEN_COMPUTED (R64). -/
def execTokenComputed (s : State) : Host.Outcome State Fault Refusal :=
  .next (match s.cipher.busy with
    | some (.token e m p) => s.tokenComputed e m p
    | _ => s)

/-! ## Stage 6: the four writes (R158, R159) -/

/-- Step 1 completes: the commit row holds the marker, and the meter-row write is placed. -/
def State.markerWritten (e : EngineId) (m : Marker) (s : State) : State :=
  ({ s with memory := s.memory.writeCommit e (some m) }.finishOp).place (.commitMeter e m)

/-- COMMIT_MARKER_WRITTEN (R158). -/
def execCommitMarkerWritten (s : State) : Host.Outcome State Fault Refusal :=
  .next (match s.current with
    | some (.commitMarker e m) => s.markerWritten e m
    | _ => s)

/-- The effect of a commit's meter-row write on the row's condition (R159). -/
def Store.commitRow (t : Store) (n : Nat) (m : MeterNumber) : Store :=
  match t.condition n with
  | .record => t.undamage n
  | .orphan => if (t.rowOf m).isNone then ((t.setCondition n .record).indexMeter m n).unlistOrphan n else t
  | _ => t

/-- Step 2 completes: the meter row holds the image, and the office-row write is placed. -/
def State.meterRowWritten (e : EngineId) (m : Marker) (s : State) : State :=
  ({ s.writeRecord m.row m.image with store := s.store.commitRow m.row m.image.meter }.finishOp).place
    (.office (.commit e m))

/-- COMMIT_METER_ROW_WRITTEN (R159). -/
def execCommitMeterRowWritten (s : State) : Host.Outcome State Fault Refusal :=
  .next (match s.current with
    | some (.commitMeter e m) => s.meterRowWritten e m
    | _ => s)

/-- The authority unit takes a commit's values: spent, day tally and commit count (R132, R135, R158). -/
def Authority.spend (a : Authority) (e : EngineId) (m : Marker) : Authority :=
  { a with spent := a.spent + m.tender, tally := a.tally.add m.increments, commitCounts := a.commitCounts.set e m.count }

/-- The engine's record of its reservation ends with the spend (R119). -/
def State.clearReserved (s : State) (e : EngineId) : State :=
  match s.busyEngine e with
  | some b => s.setEngine e (.busy { b with work := { b.work with reserved := 0 } })
  | none => s

/-- Step 3 completes: the unit takes the values, reserved falls by the tender, and the clear is placed (R132, R158). -/
def State.officeRowWritten (e : EngineId) (m : Marker) (s : State) : State :=
  let a := s.authority.spend e m
  (({ s.officeWritten with authority := { a with reserved := a.reserved - m.tender } }.clearReserved e).finishOp).place
    (.commitClear e)

/-- COMMIT_OFFICE_ROW_WRITTEN (R132). -/
def execCommitOfficeRowWritten (s : State) : Host.Outcome State Fault Refusal :=
  .next (match s.current with
    | some (.office (.commit e m)) => s.officeRowWritten e m
    | _ => s)

/-! ## Stage 7 (R120) -/

/-- The DONE outcome of an item (R120). -/
def WorkingValues.outcome (w : WorkingValues) (tender : Nat) : DoneOutcome :=
  match w.calculation with
  | some v =>
    { tokens := w.tokens, tender := tender, recovered := v.recovered, collected := v.collected, energyCost := v.energyCost
      carry := v.carry, bought := v.bought, blockReached := v.blockReached, arrearsRemaining := v.arrears
      arrearsCleared := v.arrearsCleared }
  | none =>
    { tokens := w.tokens, tender := 0, recovered := 0, collected := 0, energyCost := 0, carry := 0, bought := 0
      blockReached := 0, arrearsRemaining := 0, arrearsCleared := false }

/-- The close of a DONE item (R120), then the next item or the end of the request. -/
def State.closeItem (s : State) (e : EngineId) (b : BusyEngine) (item : Item) : State :=
  ((((s.releaseLock e).lowerSlots b.work.slots).updateLane b.lane (·.reportDone item b.work.tokens.length))).endItem e b
    (.done (b.work.outcome item.tender))

/-- Step 4 completes: the commit row is EMPTY and the engine closes the item (R119, R120). -/
def State.commitCleared (e : EngineId) (s : State) : State :=
  let t := { s with memory := s.memory.writeCommit e none }.finishOp
  match t.busyEngine e with
  | some b =>
    match b.items[b.item]? with
    | some item => t.closeItem e b item
    | none => t
  | none => t

/-- COMMIT_CLEARED (R120). -/
def execCommitCleared (s : State) : Host.Outcome State Fault Refusal :=
  .next (match s.current with
    | some (.commitClear e) => s.commitCleared e
    | _ => s)

/-! ## ENABLE_ENGINE_B (R103) -/

/-- ENABLE_ENGINE_B at engine B. -/
def State.enableRequest (body : List Byte) (s : State) : State :=
  match decodeEmpty body with
  | none => s.answer .badField
  | some _ =>
    if s.engines.b = .disabled then
      (s.setEngine .b (restingEngine .b s.supply)).respond .done (.engineEnabled true)
    else s.respond .done (.engineEnabled false)

/-- ENABLE_ENGINE_B (R103). -/
def execEnableEngineB (lane : LaneId) (tag : Tag) (body : List Byte) (s : State) : Host.Outcome State Fault Refusal :=
  .next (s.takeSupervisor .enableEngineB lane tag (State.enableRequest body))

end Sys2Proof.Machine
end

