-- ==== Sys2Proof/Machine/Authority.lean ====
section
/-! DEFINITION. Vending authority and the trading calendar (R127 to R144): GRANT with its verification and write, CLOSE_DAY,
CLOSE_MONTH, and the day-age writes of the office row. -/

namespace Sys2Proof.Machine

open Sys2Proof

/-- The top of granted authority in cents (R127). -/
def maxGranted : Nat := 1000000000000

/-- The top of the trading day and month (R134, R138). -/
def maxPeriod : Nat := 65535

/-! ## GRANT (R129, R130) -/

/-- GRANT at the authority unit: checks 1 to 3, then the verification goes to the cipher. -/
def State.grantRequest (body : List Byte) (s : State) : State :=
  match decodeGrant body with
  | none => s.answer .badField
  | some f =>
    if f.officeId ≠ s.settings.officeId then s.answer .badField
    else if f.serial ≤ s.authority.lastSerial then s.answer .staleGrant
    else s.requestCipher (.grant f)

/-- GRANT (R129). -/
def execGrant (lane : LaneId) (tag : Tag) (body : List Byte) (s : State) : Host.Outcome State Fault Refusal :=
  .next (s.takeSupervisor .grant lane tag (State.grantRequest body))

/-- The verification of a GRANT completes: checks 4 and 5, then the office-row write is placed (R129, R130). -/
def State.grantVerified (f : GrantFields) (s : State) : State :=
  let t := s.completeCipher
  if f.authentication ≠ Config.authentication s.grantKey f.message then t.answer .badAuth
  else if maxGranted < t.authority.granted + f.amount then t.answer .badField
  else t.place (.office (.grant f.amount f.serial))

/-- GRANT_VERIFIED (R73, R129). -/
def execGrantVerified (s : State) : Host.Outcome State Fault Refusal :=
  .next (match s.cipher.busy with
    | some (.grant f) => s.grantVerified f
    | _ => s)

/-- The unit takes a grant (R130). -/
def Authority.grant (a : Authority) (amount serial : Nat) : Authority :=
  { a with granted := a.granted + amount, lastSerial := serial }

/-- The office-row write of a GRANT completes (R130). -/
def State.grantWritten (amount serial : Nat) (s : State) : State :=
  let a := s.authority.grant amount serial
  ({ s.officeWritten with authority := a }.finishOp).respond .done (.granted serial a.granted a.available)

/-- GRANT_WRITE_DONE (R130). -/
def execGrantWriteDone (s : State) : Host.Outcome State Fault Refusal :=
  .next (match s.current with
    | some (.office (.grant amount serial)) => s.grantWritten amount serial
    | _ => s)

/-! ## CLOSE_DAY (R136) -/

/-- CLOSE_DAY at the authority unit. -/
def State.closeDayRequest (body : List Byte) (s : State) : State :=
  match decodeEmpty body with
  | none => s.answer .badField
  | some _ => if s.authority.day = maxPeriod then s.answer .dayLimit else s.place (.office .closeDay)

/-- CLOSE_DAY (R136). -/
def execCloseDay (lane : LaneId) (tag : Tag) (body : List Byte) (s : State) : Host.Outcome State Fault Refusal :=
  .next (s.takeSupervisor .closeDay lane tag (State.closeDayRequest body))

/-- The unit begins a new day (R136). -/
def Authority.newDay (a : Authority) : Authority :=
  { a with day := a.day + 1, tally := {}, overdue := false, dayAge := 0, prescaler := 0 }

/-- The office-row write of a CLOSE_DAY completes, a minute step that a TICK left due coming first (R136; log entry 3). -/
def State.dayClosed (s : State) : State :=
  let t := s.settleMinute
  ({ t.officeWritten with authority := t.authority.newDay }.finishOp).respond .done
    (.dayClosed t.authority.day t.authority.tally)

/-- CLOSE_DAY_WRITE_DONE (R136). -/
def execCloseDayWriteDone (s : State) : Host.Outcome State Fault Refusal :=
  .next (match s.current with
    | some (.office .closeDay) => s.dayClosed
    | _ => s)

/-! ## CLOSE_MONTH (R139) -/

/-- CLOSE_MONTH at the authority unit. -/
def State.closeMonthRequest (body : List Byte) (s : State) : State :=
  match decodeEmpty body with
  | none => s.answer .badField
  | some _ => if s.authority.month = maxPeriod then s.answer .monthLimit else s.place (.office .closeMonth)

/-- CLOSE_MONTH (R139). -/
def execCloseMonth (lane : LaneId) (tag : Tag) (body : List Byte) (s : State) : Host.Outcome State Fault Refusal :=
  .next (s.takeSupervisor .closeMonth lane tag (State.closeMonthRequest body))

/-- The office-row write of a CLOSE_MONTH completes: the unit takes the new month and hands the month advance to the tariff
unit (R139; log entry 21). -/
def State.monthClosed (s : State) : State :=
  let month := s.authority.month + 1
  ({ s.officeWritten with
      authority := { s.authority with month := month }
      tariff := { s.tariff with advances := s.tariff.advances ++ [month] } }.finishOp).respond .done (.month month)

/-- CLOSE_MONTH_WRITE_DONE (R139). -/
def execCloseMonthWriteDone (s : State) : Host.Outcome State Fault Refusal :=
  .next (match s.current with
    | some (.office .closeMonth) => s.monthClosed
    | _ => s)

/-! ## The day-age writes (R141, R142) -/

/-- DAY_AGE_WRITE_DONE (R141, R142): the write's completion changes no value in the unit. -/
def execDayAgeWriteDone (s : State) : Host.Outcome State Fault Refusal :=
  .next (match s.current with
    | some (.office .dayAge) => s.officeWritten.finishOp
    | _ => s)

end Sys2Proof.Machine
end

