-- ==== Sys2Proof/Machine/Office.lean ====
section
/-! DEFINITION. The office-wide requests (R154, R178 to R183): CLEAR_EVENTS, READ_STATUS, SET_OFFICE and SET_MEMORY_ALARM with
their completions. -/

namespace Sys2Proof.Machine

open Sys2Proof

/-! ## CLEAR_EVENTS (R180) -/

/-- CLEAR_EVENTS at the link: the reply shows every flag and condition after the clear. -/
def State.clearEventsRequest (body : List Byte) (s : State) : State :=
  match decodeClearEvents body with
  | none => s.answer .badField
  | some named =>
    let t := { s with events := s.events.clear named }
    t.respond .done (.events t.events t.resultWaiting t.memoryAlarm)

/-- CLEAR_EVENTS (R180). -/
def execClearEvents (lane : LaneId) (tag : Tag) (body : List Byte) (s : State) : Host.Outcome State Fault Refusal :=
  .next (s.takeSupervisor .clearEvents lane tag (State.clearEventsRequest body))

/-! ## READ_STATUS (R181) -/

/-- The step of start-up that an operation belongs to (R166 to R169), by the number that section 8.4 gives it; READ_STATUS sends
that number (DESIGN CHOICE, log entry 45). -/
def RowOp.startupStep : RowOp → Option Nat
  | .startOffice _ => some 1
  | .startCommit _ => some 2
  | .rollMeter _ _ => some 2
  | .office (.rollForward _ _) => some 2
  | .rollClear _ => some 2
  | .scan _ => some 3
  | _ => none

/-- The next meter row to be scanned while a scan's read is in progress (R166): the row of that read, until it completes (DESIGN
CHOICE, log entry 44). -/
def RowOp.scanRow : RowOp → Option Nat
  | .scan n => some n
  | _ => none

/-- What is reported of an engine (R102): items are counted from 1. -/
def Engine.report : Engine → EngineReport
  | .disabled => .disabled
  | .idle => .idle
  | .parked => .parked
  | .busy b => .busy b.lane b.tag (b.item + 1) b.stage

/-- What READ_STATUS reports (R181). -/
def State.statusReport (s : State) : StatusReport :=
  { office := s.office
    startupStep := if s.office = .starting then s.current.bind RowOp.startupStep else none
    nextRow := if s.office = .starting then s.current.bind RowOp.scanRow else none
    fault := s.faultRecord
    supply := s.supply
    events := s.events
    resultWaiting := s.resultWaiting
    memoryAlarm := s.memoryAlarm
    available := s.authority.available
    reserved := s.authority.reserved
    granted := s.authority.granted
    spent := s.authority.spent
    lastSerial := s.authority.lastSerial
    day := s.authority.day
    month := s.authority.month
    dayAge := s.authority.dayAge
    overdue := s.authority.overdue
    engines := ⟨s.engines.a.report, s.engines.b.report⟩
    errorCount := s.store.errorCount
    alarmExponent := s.store.alarmExponent
    damagedRows := s.store.damaged.length
    orphans := s.store.orphans
    overflow := s.store.overflow
    passes := s.store.scrubber.passes
    settings := s.settings }

/-- READ_STATUS at the link, in every state of lane 0 (R177, R181). -/
def State.readStatusRequest (body : List Byte) (s : State) : State :=
  match decodeEmpty body with
  | none => s.answer .badField
  | some _ => s.respond .done (.status s.statusReport)

/-- READ_STATUS (R181). -/
def execReadStatus (lane : LaneId) (tag : Tag) (body : List Byte) (s : State) : Host.Outcome State Fault Refusal :=
  .next (s.takeFrame .readStatus lane tag (State.readStatusRequest body))

/-! ## SET_OFFICE (R182, R183) -/

/-- SET_OFFICE at the link: once a grant has been taken the office id cannot change (R182). -/
def State.setOfficeRequest (body : List Byte) (s : State) : State :=
  match decodeSetOffice body with
  | none => s.answer .badField
  | some st =>
    if 0 < s.authority.lastSerial ∧ st.officeId ≠ s.settings.officeId then s.answer .badField
    else s.place (.office (.setOffice st))

/-- SET_OFFICE (R182). -/
def execSetOffice (lane : LaneId) (tag : Tag) (body : List Byte) (s : State) : Host.Outcome State Fault Refusal :=
  .next (s.takeSupervisor .setOffice lane tag (State.setOfficeRequest body))

/-- The settings take effect in one event (R183): R142 when the day limit changed, R133 when the low mark rose. In that event
the store takes its next operation before the flag of R142 is set (DESIGN CHOICE, log entry 43). -/
def State.settingsWritten (st : OfficeSettings) (s : State) : State :=
  let t := { s.officeWritten with settings := st }.finishOp
  let t1 := if st.dayLimit ≠ s.settings.dayLimit then t.checkOverdue else t
  (State.noteAuthority s t1).respond .done (.settings st)

/-- SET_OFFICE_WRITE_DONE (R183). -/
def execSetOfficeWriteDone (s : State) : Host.Outcome State Fault Refusal :=
  .next (match s.current with
    | some (.office (.setOffice st)) => s.settingsWritten st
    | _ => s)

/-! ## SET_MEMORY_ALARM (R154) -/

/-- SET_MEMORY_ALARM at the store: an exponent above 23 is held at 23. -/
def State.setAlarmRequest (body : List Byte) (s : State) : State :=
  match decodeSetMemoryAlarm body with
  | none => s.answer .badField
  | some (exponent, count) => s.place (.office (.setAlarm (min exponent 23) count))

/-- SET_MEMORY_ALARM (R154). -/
def execSetMemoryAlarm (lane : LaneId) (tag : Tag) (body : List Byte) (s : State) : Host.Outcome State Fault Refusal :=
  .next (s.takeSupervisor .setMemoryAlarm lane tag (State.setAlarmRequest body))

/-- The alarm write completes: exponent and count take their new values in one event (R154). -/
def State.alarmWritten (exponent count : Nat) (s : State) : State :=
  ({ s.officeWritten with store := { s.store with alarmExponent := exponent, errorCount := count } }.finishOp).respond .done
    (.alarm exponent count)

/-- MEMORY_ALARM_WRITE_DONE (R154). -/
def execMemoryAlarmWriteDone (s : State) : Host.Outcome State Fault Refusal :=
  .next (match s.current with
    | some (.office (.setAlarm exponent count)) => s.alarmWritten exponent count
    | _ => s)

end Sys2Proof.Machine
end

