-- ==== Sys2Proof/Machine/Store.lean ====
section
/-! DEFINITION. The record store's own work: the scrubber (R155 to R157) and start-up in its three steps, the office rows, the
roll-forward of the commit rows and the scan of the meter rows (R160, R167 to R172). -/

namespace Sys2Proof.Machine

open Sys2Proof

/-! ## The scrubber (R111, R155 to R157) -/

/-- The position after a row, and whether the pass is complete (R156, R157). -/
def nextPosition : RowId → RowId × Bool
  | .meter n => if n < lastMeterRow then (.meter (n + 1), false) else (.office, false)
  | .office => (.tariff 0, false)
  | .tariff i => if i = 0 then (.tariff 1, false) else (.key 0, false)
  | .key i => if i.val < 3 then (.key (i + 1), false) else (.laneSettings, false)
  | .laneSettings => (.commit .a, false)
  | .commit .a => (.commit .b, false)
  | .commit .b => (.meter 0, true)

/-- The scrubber's step is done: the position moves, and a completed pass is counted, held at the top of its range. -/
def Scrubber.advance (c : Scrubber) : Scrubber :=
  { position := (nextPosition c.position).1
    passes := if (nextPosition c.position).2 then min 4294967295 (c.passes + 1) else c.passes
    reading := false }

/-- The scrubber moves on. -/
def State.advanceScrubber (s : State) : State :=
  { s with store := { s.store with scrubber := s.store.scrubber.advance } }

/-- The scrubber places the read of its row. -/
def State.placeScrub (s : State) (id : RowId) : State :=
  { s with store := { s.store with scrubber := { s.store.scrubber with reading := true } } }.place (.scrub id)

/-- The scrubber claims the meter of a row in condition RECORD outside the damaged set (R111, R156): passed over when an
engine names the meter, else claimed and read, also while an engine's claim only waits for it. -/
def State.scrubMeter (s : State) (n : Nat) : State :=
  match s.store.meterAt n with
  | some m =>
    if s.locks.heldByEngine m then s.advanceScrubber
    else { s with locks := { s.locks with scrubber := some m } }.placeScrub (.meter n)
  | none => s.advanceScrubber

/-- One step of the scrubber at its position. -/
def State.visitRow (s : State) : State :=
  match s.store.scrubber.position with
  | .meter n =>
    if s.store.condition n = .record ∧ s.store.damaged.contains n = false then s.scrubMeter n else s.advanceScrubber
  | id => s.placeScrub id

/-- The scrubber runs while the office is READY and the supply is MAINS, one step at a time (R155). -/
def State.scrubberRuns (s : State) : Bool :=
  s.office == .ready && s.supply == .mains && !s.store.scrubber.reading

/-- SCRUBBER_STEP (R156). -/
def execScrubberStep (s : State) : Host.Outcome State Fault Refusal :=
  .next (if s.scrubberRuns then s.visitRow else s)

/-- The findings of the scrubber's read of a meter row (R149 to R151). A row that other work took out of RECORD after the
claim has its corrected words counted and rewritten, no more (log entry 22). -/
def State.scrubFindings (s : State) (n : Nat) (d : Decay) : State :=
  if s.store.condition n = .record then s.readRecordRow n d else s.readWords n d

/-- A read of an office row or a commit row whose findings may put the office in FAULT (R152). -/
def State.readOrFault (s : State) (id : RowId) (d : Decay) (byScrubber : Bool) : State :=
  if s.rowLost id d then (s.readPlainRow id d).enterFault id byScrubber else s.readPlainRow id d

/-- The scrubber's read completes: the findings take effect, the meter is released, and the position moves. -/
def State.scrubbed (id : RowId) (d : Decay) (s : State) : State :=
  match id with
  | .meter n =>
    let t := s.scrubFindings n d
    { t with locks := { t.locks with scrubber := none } }.finishOp.advanceScrubber
  | _ => (s.readOrFault id d true).finishOp.advanceScrubber

/-- SCRUBBER_READ_DONE (R156, R157). -/
def execScrubberReadDone (decay : Decay) (s : State) : Host.Outcome State Fault Refusal :=
  .next (match s.current with
    | some (.scrub id) => s.scrubbed id decay
    | _ => s)

/-! ## Start-up, step 1: the office rows (R167) -/

/-- The office row after another in start-up's order; none after the lane-settings row. -/
def nextOfficeRow (id : RowId) : Option RowId :=
  match id with
  | .laneSettings => none
  | _ => some (nextPosition id).1

/-- The authority unit's values from the office row (R144, R167). -/
def OfficeRow.authority (r : OfficeRow) : Authority :=
  { granted := r.granted, spent := r.spent, reserved := 0, lastSerial := r.lastSerial, day := r.day, month := r.month
    tally := r.tally, overdue := r.overdue, commitCounts := r.commitCounts, dayAge := r.dayAgeHours * 60, prescaler := 0 }

/-- A key slot from its key row (R65). -/
def slotOfRow : Option KeyContent → KeySlot
  | some k => { state := .loaded k.generation k.key, inUse := 0 }
  | none => {}

/-- Each unit takes its values from the eight office rows, in one event (R167). -/
def State.unitsTakeValues (s : State) : State :=
  { s with
    authority := s.memory.office.content.authority
    settings := s.memory.office.content.settings
    tariff := startupTariff s.memory.tariffs s.memory.office.content.month
    slots := s.memory.keys.map fun r => slotOfRow r.content
    laneSettings := s.memory.lanes.content
    store := { s.store with alarmExponent := s.memory.office.content.alarmExponent } }

/-- The read of an office row at start-up completes (R167). -/
def State.officeRowRead (id : RowId) (d : Decay) (s : State) : State :=
  let t := (s.readOrFault id d false).finishOp
  if s.rowLost id d then t
  else
    match nextOfficeRow id with
    | some next => t.place (.startOffice next)
    | none => t.unitsTakeValues.place (.startCommit .a)

/-- STARTUP_OFFICE_ROW_READ (R167). -/
def execStartupOfficeRowRead (decay : Decay) (s : State) : Host.Outcome State Fault Refusal :=
  .next (match s.current with
    | some (.startOffice id) => s.officeRowRead id decay
    | _ => s)

/-! ## Start-up, step 2: roll-forward (R160, R168) -/

/-- The operation after an engine's commit row has been dealt with: engine B's commit row, then the scan. -/
def afterCommitRow : EngineId → RowOp
  | .a => .startCommit .b
  | .b => .scan 0

/-- The read of a commit row at start-up completes (R160). -/
def State.commitRowRead (e : EngineId) (d : Decay) (s : State) : State :=
  let t := (s.readOrFault (.commit e) d false).finishOp
  if s.rowLost (.commit e) d then t
  else
    match (s.memory.commits.get e).content with
    | some m => t.place (.rollMeter e m)
    | none => t.place (afterCommitRow e)

/-- COMMIT_ROW_READ (R160). -/
def execCommitRowRead (decay : Decay) (s : State) : Host.Outcome State Fault Refusal :=
  .next (match s.current with
    | some (.startCommit e) => s.commitRowRead e decay
    | _ => s)

/-- The meter-row write of roll-forward completes: the office-row write follows when the counts differ (R160). -/
def State.rollMeterWritten (e : EngineId) (m : Marker) (s : State) : State :=
  let t := (s.writeRecord m.row m.image).finishOp
  if s.memory.office.content.commitCounts.get e ≠ m.count then t.place (.office (.rollForward e m))
  else t.place (.rollClear e)

/-- The office-row write of roll-forward completes: the unit takes the values (R132, R160, R167). -/
def State.rollOfficeWritten (e : EngineId) (m : Marker) (s : State) : State :=
  ({ s.officeWritten with authority := s.authority.spend e m }.finishOp).place (.rollClear e)

/-- The clearing of the commit row completes (R160). -/
def State.rollCleared (e : EngineId) (s : State) : State :=
  ({ s with memory := s.memory.writeCommit e none }.finishOp).place (afterCommitRow e)

/-- ROLL_FORWARD_WRITE_DONE (R160). -/
def execRollForwardWriteDone (s : State) : Host.Outcome State Fault Refusal :=
  .next (match s.current with
    | some (.rollMeter e m) => s.rollMeterWritten e m
    | some (.office (.rollForward e m)) => s.rollOfficeWritten e m
    | some (.rollClear e) => s.rollCleared e
    | _ => s)

/-! ## Start-up, step 3: the scan (R169, R170), and READY (R144, R171) -/

/-- The later row keeps the entry over the earlier: a known sequence beats an unknown one, and of two known ones the
higher wins (R170). -/
def laterRowWins (earlier later : Option Nat) : Bool :=
  match earlier, later with
  | some a, some b => a < b
  | none, some _ => true
  | _, none => false

/-- The sequence of a row, when it is known (R170). -/
def MeterRow.knownSequence (r : MeterRow) : Option Nat :=
  if r.words.sequenceKnown then r.content.map (·.sequence) else none

/-- A scanned row takes the index entry of its meter; a row with an uncorrectable word joins the damaged set (R169). -/
def State.indexScanned (s : State) (n : Nat) (m : MeterNumber) (lost : Bool) : State :=
  let t := { s with store := (s.store.setCondition n .record).indexMeter m n }
  if lost then t.markDamaged n else t

/-- A scanned row that carries a meter number, with its record and its words (R169, R170). -/
def State.scanRecord (s : State) (n : Nat) (r : MeterRecord) (w : MeterWords) : State :=
  let lost := w.sequence == .uncorrectable || 0 < w.body.lost
  match s.store.rowOf r.meter with
  | none => s.indexScanned n r.meter lost
  | some k =>
    if laterRowWins (s.memory.meterRow k).knownSequence (if w.sequenceKnown then some r.sequence else none) then
      (s.makeOrphan k).indexScanned n r.meter lost
    else s.makeOrphan n

/-- The condition of a scanned row from its findings (R169). -/
def State.scanFindings (s : State) (n : Nat) (d : Decay) : State :=
  let w := s.wordsAt n d
  let t := s.readWords n d
  if w.number = .uncorrectable then t.makeOrphan n
  else
    match (s.memory.meterRow n).content with
    | none =>
      { t with store := { (t.store.setCondition n .free) with freeList := insertRising n t.store.freeList } }
    | some r => t.scanRecord n r w

/-- The office becomes READY: the steps of R144 (R171). -/
def State.enterReady (s : State) : State :=
  let t := { s with office := .ready }
  let t1 := if t.authority.overdue then t.raiseDayOverdue else t.checkOverdue
  if t1.authority.available < t1.settings.lowMark then t1.raiseAuthorityLow else t1

/-- The scan's read of a meter row completes (R169, R171). -/
def State.rowScanned (n : Nat) (d : Decay) (s : State) : State :=
  let t := (s.scanFindings n d).finishOp
  if n < lastMeterRow then t.place (.scan (n + 1)) else t.enterReady

/-- SCAN_ROW_READ (R169). -/
def execScanRowRead (decay : Decay) (s : State) : Host.Outcome State Fault Refusal :=
  .next (match s.current with
    | some (.scan n) => s.rowScanned n decay
    | _ => s)

end Sys2Proof.Machine
end

