-- ==== Sys2Proof/Machine/Supply.lean ====
section
/-! DEFINITION. The supply monitor's events (R162 to R164, R104) and the reset of the part (R147, R165): MAINS_OK_CHANGE,
PWR_WARN_CHANGE, RESET and RESET_ASSERTED. -/

namespace Sys2Proof.Machine

open Sys2Proof

/-! ## Supply changes (R163) -/

/-- Engine B at a change of supply state (R104). -/
def Engine.follow (x : Engine) (supply : Supply) : Engine :=
  match x with
  | .disabled => .disabled
  | .busy b => .busy b
  | _ => restingEngine .b supply

/-- The monitor derives the state from the two levels; a state that differs is taken, sets SUPPLY_CHANGE and is handed to
engine B (R163). The dispatcher and the scrubber read it from the state. -/
def State.deriveSupply (s : State) : State :=
  let supply := supplyOf s.mainsOk s.pwrWarn
  if supply = s.supply then s
  else
    { s.raiseSupplyChange with supply := supply, engines := { s.engines with b := s.engines.b.follow supply } }

/-- MAINS_OK_CHANGE (R163). -/
def execMainsOkChange (high : Bool) (s : State) : Host.Outcome State Fault Refusal :=
  .next { s with mainsOk := high }.deriveSupply

/-- PWR_WARN_CHANGE (R163). -/
def execPwrWarnChange (high : Bool) (s : State) : Host.Outcome State Fault Refusal :=
  .next { s with pwrWarn := high }.deriveSupply

/-! ## Reset (R147, R165) -/

/-- Record memory when the operation in progress leaves its row wholly new, its read having found the decay `d` (R147). A
commit's first write leaves its row old always: cut short by a reset, it leaves the record as before the item (R124). -/
def State.landedMemory (s : State) (d : Decay) : RecordMemory :=
  match s.store.inProgress with
  | none => s.memory
  | some t =>
    match t.op with
    | .itemRead _ m => (s.readMeter m d).1.memory
    | .counterRead _ q => (s.readMeter q.meter d).1.memory
    | .record op => (s.recordDone op t.row d).memory
    | .scrub id => (s.scrubbed id d).memory
    | .commitMarker _ _ => s.memory
    | .commitMeter _ m => s.memory.writeRecord m.row m.image
    | .commitClear e => s.memory.writeCommit e none
    | .office _ => s.memory.writeOffice s.formedRow
    | .setTariff row bank => s.memory.writeTariff row (some bank)
    | .clearTariff row => s.memory.writeTariff row none
    | .loadKey slot k => s.memory.writeKey slot (some k)
    | .dropKey slot _ => s.memory.writeKey slot none
    | .setLane named given namesEngine => s.memory.writeLanes (s.laneSettingsAfter named given namesEngine)
    | .startOffice id => (s.readPlainRow id d).memory
    | .startCommit e => (s.readPlainRow (.commit e) d).memory
    | .rollMeter _ m => s.memory.writeRecord m.row m.image
    | .rollClear e => s.memory.writeCommit e none
    | .scan n => (s.readWords n d).memory

/-- The part after a reset that finds this record memory: every volatile state at its reset value, the supply state taken
from the inputs, and start-up's first read in progress (R165). The grant key is kept (R65), and so is the model's own
queue of commands (log entry 30). -/
def State.restart (s : State) (m : RecordMemory) : State :=
  { pending := s.pending
    mainsOk := s.mainsOk
    pwrWarn := s.pwrWarn
    supply := supplyOf s.mainsOk s.pwrWarn
    grantKey := s.grantKey
    store := { inProgress := some { op := .startOffice .office }, alarmExponent := m.office.content.alarmExponent }
    memory := m }

/-- RESET (R165): `landed` says whether a row write in progress left its row old, or new after a read that found a decay
(R147). -/
def execReset (landed : Option Decay) (s : State) : Host.Outcome State Fault Refusal :=
  .next (s.restart (match landed with
    | some d => s.landedMemory d
    | none => s.memory))

/-- RESET_ASSERTED (R165): from here until the release no frame is taken. -/
def execResetAsserted (s : State) : Host.Outcome State Fault Refusal :=
  .next { s with resetHeld := true }

end Sys2Proof.Machine
end

