-- ==== Sys2Proof/Machine/Dispatch.lean ====
section
/-! DEFINITION. What each command does: one arm for each constructor, each one call of the command's meaning. -/

namespace Sys2Proof.Machine

open Sys2Proof

/-- The effect of a command on everything but the queue. -/
def exec (i : Instr) (s : State) : Host.Outcome State Fault Refusal :=
  match i with
  | .vend lane tag body => Sys2Proof.Machine.execVend lane tag body s
  | .cancel lane tag body => Sys2Proof.Machine.execCancel lane tag body s
  | .collect lane tag body => Sys2Proof.Machine.execCollect lane tag body s
  | .resume lane tag body => Sys2Proof.Machine.execResume lane tag body s
  | .laneStatus lane tag body => Sys2Proof.Machine.execLaneStatus lane tag body s
  | .lookup lane tag body => Sys2Proof.Machine.execLookup lane tag body s
  | .reprint lane tag body => Sys2Proof.Machine.execReprint lane tag body s
  | .quote lane tag body => Sys2Proof.Machine.execQuote lane tag body s
  | .openLane lane tag body => Sys2Proof.Machine.execOpenLane lane tag body s
  | .closeLane lane tag body => Sys2Proof.Machine.execCloseLane lane tag body s
  | .setLane lane tag body => Sys2Proof.Machine.execSetLane lane tag body s
  | .clearLaneCount lane tag body => Sys2Proof.Machine.execClearLaneCount lane tag body s
  | .enrol lane tag body => Sys2Proof.Machine.execEnrol lane tag body s
  | .amend lane tag body => Sys2Proof.Machine.execAmend lane tag body s
  | .retire lane tag body => Sys2Proof.Machine.execRetire lane tag body s
  | .reinstate lane tag body => Sys2Proof.Machine.execReinstate lane tag body s
  | .purge lane tag body => Sys2Proof.Machine.execPurge lane tag body s
  | .purgeRow lane tag body => Sys2Proof.Machine.execPurgeRow lane tag body s
  | .restore lane tag body => Sys2Proof.Machine.execRestore lane tag body s
  | .setTariff lane tag body => Sys2Proof.Machine.execSetTariff lane tag body s
  | .clearPendingTariff lane tag body => Sys2Proof.Machine.execClearPendingTariff lane tag body s
  | .readTariff lane tag body => Sys2Proof.Machine.execReadTariff lane tag body s
  | .loadKey lane tag body => Sys2Proof.Machine.execLoadKey lane tag body s
  | .dropKey lane tag body => Sys2Proof.Machine.execDropKey lane tag body s
  | .readKeys lane tag body => Sys2Proof.Machine.execReadKeys lane tag body s
  | .enableEngineB lane tag body => Sys2Proof.Machine.execEnableEngineB lane tag body s
  | .grant lane tag body => Sys2Proof.Machine.execGrant lane tag body s
  | .closeDay lane tag body => Sys2Proof.Machine.execCloseDay lane tag body s
  | .closeMonth lane tag body => Sys2Proof.Machine.execCloseMonth lane tag body s
  | .setMemoryAlarm lane tag body => Sys2Proof.Machine.execSetMemoryAlarm lane tag body s
  | .clearEvents lane tag body => Sys2Proof.Machine.execClearEvents lane tag body s
  | .readStatus lane tag body => Sys2Proof.Machine.execReadStatus lane tag body s
  | .setOffice lane tag body => Sys2Proof.Machine.execSetOffice lane tag body s
  | .badFrame bytes => Sys2Proof.Machine.execBadFrame bytes s
  | .frameDiscarded bytes => Sys2Proof.Machine.execFrameDiscarded bytes s
  | .replyRead count => Sys2Proof.Machine.execReplyRead count s
  | .tick => Sys2Proof.Machine.execTick s
  | .idleExpiry lane => Sys2Proof.Machine.execIdleExpiry lane s
  | .dayAgeMinute => Sys2Proof.Machine.execDayAgeMinute s
  | .mainsOkChange high => Sys2Proof.Machine.execMainsOkChange high s
  | .pwrWarnChange high => Sys2Proof.Machine.execPwrWarnChange high s
  | .reset landed => Sys2Proof.Machine.execReset landed s
  | .dispatch => Sys2Proof.Machine.execDispatch s
  | .claimRetaken => Sys2Proof.Machine.execClaimRetaken s
  | .waitingSupervisorRetaken => Sys2Proof.Machine.execWaitingSupervisorRetaken s
  | .itemReadDone decay => Sys2Proof.Machine.execItemReadDone decay s
  | .tokenComputed => Sys2Proof.Machine.execTokenComputed s
  | .grantVerified => Sys2Proof.Machine.execGrantVerified s
  | .loadKeyVerified => Sys2Proof.Machine.execLoadKeyVerified s
  | .restoreVerified => Sys2Proof.Machine.execRestoreVerified s
  | .commitMarkerWritten => Sys2Proof.Machine.execCommitMarkerWritten s
  | .commitMeterRowWritten => Sys2Proof.Machine.execCommitMeterRowWritten s
  | .commitOfficeRowWritten => Sys2Proof.Machine.execCommitOfficeRowWritten s
  | .commitCleared => Sys2Proof.Machine.execCommitCleared s
  | .recordWriteDone decay => Sys2Proof.Machine.execRecordWriteDone decay s
  | .counterReadDone decay => Sys2Proof.Machine.execCounterReadDone decay s
  | .setTariffWriteDone => Sys2Proof.Machine.execSetTariffWriteDone s
  | .clearTariffWriteDone => Sys2Proof.Machine.execClearTariffWriteDone s
  | .keyWriteDone => Sys2Proof.Machine.execKeyWriteDone s
  | .dropKeyWriteDone => Sys2Proof.Machine.execDropKeyWriteDone s
  | .laneSettingsWriteDone => Sys2Proof.Machine.execLaneSettingsWriteDone s
  | .grantWriteDone => Sys2Proof.Machine.execGrantWriteDone s
  | .closeDayWriteDone => Sys2Proof.Machine.execCloseDayWriteDone s
  | .closeMonthWriteDone => Sys2Proof.Machine.execCloseMonthWriteDone s
  | .monthAdvance => Sys2Proof.Machine.execMonthAdvance s
  | .dayAgeWriteDone => Sys2Proof.Machine.execDayAgeWriteDone s
  | .setOfficeWriteDone => Sys2Proof.Machine.execSetOfficeWriteDone s
  | .memoryAlarmWriteDone => Sys2Proof.Machine.execMemoryAlarmWriteDone s
  | .scrubberStep => Sys2Proof.Machine.execScrubberStep s
  | .scrubberReadDone decay => Sys2Proof.Machine.execScrubberReadDone decay s
  | .startupOfficeRowRead decay => Sys2Proof.Machine.execStartupOfficeRowRead decay s
  | .rollForwardWriteDone => Sys2Proof.Machine.execRollForwardWriteDone s
  | .scanRowRead decay => Sys2Proof.Machine.execScanRowRead decay s
  | .commitRowRead decay => Sys2Proof.Machine.execCommitRowRead decay s
  | .resetAsserted => Sys2Proof.Machine.execResetAsserted s

end Sys2Proof.Machine
end

