-- ==== Sys2Proof/WellFormed.lean ====
section
/-! DEFINITION. When a command's operands are ones the part can meet: a request's body fits a frame (R186), a BAD_FRAME's
bytes do not pass the first three checks of R176, and a discarded frame is a frame (R174, R175). -/

namespace Sys2Proof

open Sys2Proof.Machine

/-- The most bytes a request body can have: the length field, at most 1,024, also counts lane, kind and tag (R186). -/
def maxBody : Nat := 1020

/-- The bytes of a selection that carry no request: they fail check 1, 2 or 3 of R176, or carry no frame at all. -/
def carriesNoRequest (bytes : List Byte) : Bool :=
  match classify bytes with
  | .request _ _ _ _ => false
  | _ => true

/-- A command's operands are well formed. -/
def wellFormed (i : Instr) : Bool :=
  match requestParts i with
  | some (_, _, _, body) => body.length ≤ maxBody
  | none =>
    match i with
    | .badFrame bytes => carriesNoRequest bytes
    | .frameDiscarded bytes => carriesFrame bytes
    | _ => true

/-- A command is well formed. -/
abbrev WellFormed (i : Instr) : Prop :=
  wellFormed i = true

end Sys2Proof
end

