-- ==== Sys2Proof/Safety.lean ====
section
/-! DEFINITION. What counts as a lawful state, and the terms that claims about the commands are stated in. -/

namespace Sys2Proof.Machine

open Sys2Proof

/-! ## Taking a request -/

/-- A request frame is taken and routed by checks 1 to 4 of R176: RESET is not held, the link is IDLE, the office is READY,
and no TICK has left a step due (log entry 3). -/
abbrev State.Takes (s : State) : Prop :=
  s.resetHeld = false ∧ s.exchange = .idle ∧ s.office = .ready ∧ s.tickSettled = true

/-- A supervisor request is taken and admitted (R79, R177). -/
abbrev State.TakesSupervisor (s : State) : Prop :=
  s.Takes ∧ s.supervisorOpen = true

/-- The state with a request in hand, its reply still to be formed: the lane's idle seconds are 0 and the link is WORKING. -/
def State.working (s : State) (k : Kind) (lane : LaneId) (tag : Tag) : State :=
  { s with lanes := s.lanes.set lane { s.lane lane with idle := 0 }, exchange := .working lane (requestHeader k lane tag) false }

/-- The state with a lane's context replaced and the reply to a request on that lane ready: the reply carries the warning
mark of the context and no overlap mark (R90, R176). -/
def State.replied (s : State) (k : Kind) (lane : LaneId) (tag : Tag) (x : Lane) (code : ResultCode) (body : ReplyBody) :
    State :=
  { s with lanes := s.lanes.set lane x, exchange := .replyReady ⟨requestHeader k lane tag, code, x.warns, false, body⟩ }

/-- The state with the reply in hand formed, for a reply that leaves the count as it was: from WORKING to REPLY_READY. -/
def State.completed (s : State) (lane : LaneId) (h : Header) (overlap : Bool) (code : ResultCode) (body : ReplyBody) : State :=
  { s with exchange := .replyReady ⟨h, code, (s.lane lane).warns, overlap, body⟩ }

/-- The state with the refusal of a request ready whose code charges the lane's discipline count with `n` (R87): the lane
takes the charge with its thresholds (R88, R89), and a lane that enters BARRED sets LANE_BARRED. -/
def State.charged (s : State) (k : Kind) (lane : LaneId) (tag : Tag) (n : Nat) (code : ResultCode) (body : ReplyBody) :
    State :=
  let x := ({ s.lane lane with idle := 0 } : Lane).raiseCount (lane != 0) n
  { s.replied k lane tag x code body with
    events := { s.events with
      laneBarred := s.events.laneBarred || ((s.lane lane).state != .barred && x.state == .barred) } }

/-- The state after a run of commands, for a part that no command stops. -/
def State.after (s : State) (cs : List Instr) : State :=
  cs.foldl (fun t c => match exec c t with
    | .next u => u
    | _ => t) s

/-- The store with an operation that takes no row in progress, for a store that held none. -/
def State.started (s : State) (op : RowOp) : State :=
  { s with store := { s.store with inProgress := some { op := op } } }

/-- The store has taken an operation and nothing waits behind it. -/
abbrev State.Runs (s : State) (op : RowOp) : Prop :=
  s.current = some op ∧ s.store.waiting = []

/-- The store with nothing in progress. -/
def State.rested (s : State) : State :=
  { s with store := { s.store with inProgress := none } }

/-! ## Engines -/

/-- An engine at the start of an item's stage CLAIM (R110, R113): with no holder of the meter, and no claim waiting for it (log
entry 11), the claim is granted, the engine reads the trading month and asks the store for the row; else the claim waits. -/
def State.claimed (s : State) (e : EngineId) (b : BusyEngine) (m : MeterNumber) : State :=
  if s.locks.engines.a ≠ some m ∧ s.locks.engines.b ≠ some m ∧ s.locks.scrubber ≠ some m ∧ ∀ c ∈ s.locks.waiting, c.2 ≠ m then
    { s with
      locks := { s.locks with engines := s.locks.engines.set e (some m) }
      engines := s.engines.set e (.busy { b with stage := .read, work := { month := s.authority.month } }) }.place
      (.itemRead e m)
  else
    { s with
      locks := { s.locks with waiting := s.locks.waiting ++ [(e, m)] }
      engines := s.engines.set e (.busy { b with stage := .claim, work := {} }) }

/-- An engine goes on with its group (R118, R119): it requests the next token, or, with its last token in hand, places the
commit marker of its item. -/
def State.wentOn (s : State) (e : EngineId) (b : BusyEngine) (i : Item) (r : MeterRecord) (n : Nat) : State :=
  match b.work.planned with
  | p :: _ =>
    { s with
      engines := s.engines.set e (.busy { b with stage := .tokens })
      cipher := s.cipher.request (.token e i.meter p) }
  | [] =>
    { s with engines := s.engines.set e (.busy { b with stage := .commit }) }.place
      (.commitMarker e (b.work.marker i r n (s.authority.commitCounts.get e)))

/-- A request ends with its outcomes (R98, R104, R122): its tag leaves the in-flight list, the result takes the foreground
buffer, or the background when that is full, and the engine is IDLE, or PARKED for engine B outside MAINS. -/
def State.ended (s : State) (e : EngineId) (lane : LaneId) (tag : Tag) (outcomes : List ItemOutcome) : State :=
  let l := s.lane lane
  let rest := l.inFlight.filter fun p => p ≠ (tag, e)
  { s with
    lanes := s.lanes.set lane
      (if l.foreground = none then { l with inFlight := rest, foreground := some ⟨tag, outcomes⟩ }
      else { l with inFlight := rest, background := some ⟨tag, outcomes⟩ })
    engines := s.engines.set e (if e = .b ∧ s.supply ≠ .mains then .parked else .idle) }

/-! ## Lawful states -/

/-- The supply state follows the two inputs (R162), engine A is never DISABLED or PARKED (R102), and engine B is IDLE only in
MAINS and PARKED only outside it (R104). -/
def State.SupplyLawful (s : State) : Prop :=
  s.supply = supplyOf s.mainsOk s.pwrWarn ∧ s.engines.a ≠ .disabled ∧ s.engines.a ≠ .parked
    ∧ (s.engines.b = .idle → s.supply = .mains) ∧ (s.engines.b = .parked → s.supply ≠ .mains)

/-- A meter has at most one lock holder (R109). -/
def LockTable.Distinct (t : LockTable) : Prop :=
  (∀ m, t.engines.a = some m → t.engines.b ≠ some m)
    ∧ (∀ m, t.scrubber = some m → t.engines.a ≠ some m ∧ t.engines.b ≠ some m)

/-- A lane's context obeys the limits of R74 and R97, and the rules of its state (R80, R83, R89). -/
def Lane.Lawful (l : Lane) : Prop :=
  l.count ≤ 255 ∧ l.queue.length ≤ 4 ∧ (l.queue.map (·.tag)).Nodup
    ∧ l.inFlight.length + l.waitingResults ≤ 2
    ∧ (l.background.isSome → l.foreground.isSome)
    ∧ (l.locked = true → l.state = .opened ∨ l.state = .restricted)
    ∧ (l.expiryDue = true → l.state = .opened ∨ l.state = .restricted)
    ∧ (l.state = .barred → l.queue = [])
    ∧ (l.state = .closed → l.quiet = true ∧ l.operator = none)

/-- The in-flight lists and the engines agree: each engine's request is on the in-flight list of its lane, each entry of an
in-flight list is an engine's request in hand, and none stands twice (R97, R102). -/
def State.InFlightLawful (s : State) : Prop :=
  (∀ e b, s.busyEngine e = some b → (b.tag, e) ∈ (s.lane b.lane).inFlight)
    ∧ (∀ l t e, (t, e) ∈ (s.lane l).inFlight → ∃ b, s.busyEngine e = some b ∧ b.lane = l ∧ b.tag = t)
    ∧ (∀ l, (s.lane l).inFlight.Nodup)

/-- Every lane is lawful, lane 0 is never RESTRICTED or BARRED (R79), and the in-flight lists agree with the engines. -/
def State.LanesLawful (s : State) : Prop :=
  (∀ l, (s.lane l).Lawful) ∧ ((s.lane 0).state = .closed ∨ (s.lane 0).state = .opened) ∧ s.InFlightLawful

/-- The store's volatile tables are in their one form: conditions and index list each key once, in rising order (R9, R10), the
free list rises without duplicates (R11), and so does the damaged-row set (R12). -/
def Store.Lawful (t : Store) : Prop :=
  sparseRising t.conditions ∧ sparseRising t.index ∧ t.freeList.Pairwise (· < ·) ∧ t.damaged.Pairwise (· < ·)

/-! ### The store's rows -/

/-- The operations that the store holds, the one in progress first (R148). -/
def Store.operations (t : Store) : List RowOp :=
  (t.inProgress.map (·.op)).toList ++ t.waiting

/-- The meter that an operation may make a record for (R17, R26). -/
def RowOp.newMeter : RowOp → Option MeterNumber
  | .record (.enrol f) => some f.meter
  | .record (.restore f) => some f.image.meter
  | _ => none

/-- The index, the conditions, the free list and the damaged set tell one story: a meter's index entry names a RECORD row
and every RECORD row has just one meter's (R9, R10), the free list holds the FREE rows (R11), and a damaged row is a RECORD
(R12). -/
structure Store.TablesAgree (t : Store) : Prop where
  indexed : ∀ m n, t.rowOf m = some n → t.condition n = .record
  once : ∀ m k n, t.rowOf m = some n → t.rowOf k = some n → m = k
  entry : ∀ n, t.condition n = .record → ∃ m, t.rowOf m = some n
  free : ∀ n, n ∈ t.freeList ↔ t.condition n = .free
  damaged : ∀ n ∈ t.damaged, t.condition n = .record

/-- The row that the operation in progress took stands ALLOCATED, and its meter has no index entry yet (R11, R17). -/
def Store.TakenLawful (t : Store) : Prop :=
  ∀ o n, t.inProgress = some o → o.row = some n → t.condition n = .allocated ∧ ∀ m, o.op.newMeter = some m → t.rowOf m = none

/-- Start-up has one operation at a time, and no row is determined before the scan reads it (R166, R169). -/
def Store.ScanLawful (t : Store) : Prop :=
  t.operations.countP (fun o => o.startupStep.isSome) ≤ 1
    ∧ ∀ o ∈ t.operations, o.startupStep.isSome → ∀ k, (∀ n, o = .scan n → n ≤ k) → t.condition k = .undetermined

/-- The store's rows are lawful. -/
def Store.RowsLawful (t : Store) : Prop :=
  sparseRising t.index ∧ t.TablesAgree ∧ t.TakenLawful ∧ t.ScanLawful

/-! ### The work in hand -/

/-- The engine that waits for a row operation, with the stage it waits in (R112). -/
def RowOp.errand : RowOp → Option (EngineId × Stage)
  | .itemRead e _ => some (e, .read)
  | .commitMarker e _ | .commitMeter e _ | .office (.commit e _) | .commitClear e => some (e, .commit)
  | _ => none

/-- The request in hand waits for the row operation (R174, R186). -/
def RowOp.answers : RowOp → Bool
  | .counterRead _ _ | .record _ | .setTariff _ _ | .clearTariff _ | .loadKey _ _ | .dropKey _ _ | .setLane _ _ _ => true
  | .office (.grant _ _) | .office .closeDay | .office .closeMonth | .office (.setOffice _) | .office (.setAlarm _ _) => true
  | _ => false

/-- The engine that waits for a cipher request, in its stage TOKENS (R118). -/
def CipherRequest.errand (r : CipherRequest) : Option (EngineId × Stage) :=
  r.engine.map fun e => (e, .tokens)

/-- The cipher unit's requests, the one in hand first (R72). -/
def Cipher.requests (c : Cipher) : List CipherRequest :=
  c.busy.toList ++ c.waiting

/-- What the engines wait for: waiting claims, row operations and cipher requests. -/
def State.errands (s : State) : List (EngineId × Stage) :=
  s.locks.waiting.map (fun c => (c.1, .claim)) ++ s.store.operations.filterMap RowOp.errand
    ++ s.cipher.requests.filterMap CipherRequest.errand

/-- How many answers the request in hand waits for: row operations, cipher requests and the waiting supervisor request. -/
def State.answersAwaited (s : State) : Nat :=
  s.store.operations.countP RowOp.answers + s.cipher.requests.countP (·.engine.isNone) + s.locks.supervisor.isSome.toNat

/-- The link is WORKING (R174). -/
def State.isWorking (s : State) : Bool :=
  match s.exchange with
  | .working _ _ _ => true
  | _ => false

/-- A BUSY engine's working values fit the stage it waits in (R112 to R121): its item exists, it holds no slot twice, it
holds nothing before CHECK, and in TOKENS it has tokens to request, the row and the record it read, and its item's tender
reserved. -/
def BusyEngine.Lawful (b : BusyEngine) : Prop :=
  ∃ i, b.items[b.item]? = some i ∧ b.work.slots.Nodup ∧ match b.stage with
    | .claim => b.work.reserved = 0 ∧ b.work.slots = []
    | .read => b.work.reserved = 0 ∧ b.work.slots = []
    | .tokens => b.work.planned ≠ [] ∧ b.work.row.isSome ∧ b.work.record.isSome ∧ b.work.reserved = i.tender
    | .commit => True
    | _ => False

/-- The work in hand: the store and the cipher unit keep nothing waiting while idle (R72, R148); each BUSY engine waits for
one thing, of its stage, and the other engines for none (R112); and a WORKING link waits for one answer (R174). -/
structure State.WorkLawful (s : State) : Prop where
  store : s.store.inProgress = none → s.store.waiting = []
  cipher : s.cipher.busy = none → s.cipher.waiting = []
  errand : ∀ e, s.errands.filter (fun p => p.1 = e) = ((s.busyEngine e).map fun b => (e, b.stage)).toList
  busy : ∀ e b, s.busyEngine e = some b → b.Lawful
  link : s.answersAwaited = s.isWorking.toNat

/-! ### The authority unit, the key slots and their rows -/

/-- What the marker of an engine's commit row still has to be spent, by the commit counts of the office row (R160). -/
def RecordMemory.due (m : RecordMemory) (e : EngineId) : Nat :=
  match (m.commits.get e).content with
  | some k => if k.count = m.office.content.commitCounts.get e then 0 else k.tender
  | none => 0

/-- No two key rows hold one generation (R66). -/
def RecordMemory.keysDistinct (m : RecordMemory) : Prop :=
  ∀ i j x y, (m.keys[i]).content = some x → (m.keys[j]).content = some y → x.generation = y.generation → i = (j : SlotId)

/-- Record memory can be started from: what is spent, with what the commit rows still have to spend, is at most what was
granted (R132, R160), and no two key rows hold one generation (R66). -/
def RecordMemory.Lawful (m : RecordMemory) : Prop :=
  m.office.content.spent + m.due .a + m.due .b ≤ m.office.content.granted ∧ m.keysDistinct

/-- The office row holds the unit's granted and spent amounts and its commit counts (R127, R128). -/
abbrev Authority.agrees (a : Authority) (r : OfficeRow) : Prop :=
  r.granted = a.granted ∧ r.spent = a.spent ∧ r.commitCounts = a.commitCounts

/-- A key slot that is not CHANGING holds what its key row holds (R65). -/
def KeySlot.matches (k : KeySlot) (c : Option KeyContent) : Prop :=
  match k.state with
  | .empty => c = none
  | .loaded g key => c = some ⟨g, key⟩
  | .changing => True

/-- The key slot that an operation writes the row of (R69, R70). -/
def RowOp.keySlot : RowOp → Option SlotId
  | .loadKey i _ | .dropKey i _ => some i
  | _ => none

/-- The amount that an engine has reserved (R119). -/
def State.amountHeld (s : State) (e : EngineId) : Nat :=
  match s.busyEngine e with
  | some b => b.work.reserved
  | none => 0

/-- The key slots that an engine's item uses (R66). -/
def State.slotsHeld (s : State) (e : EngineId) : List SlotId :=
  match s.busyEngine e with
  | some b => b.work.slots
  | none => []

/-- The row of the office write in progress was formed of the unit's amounts and commit counts (R128). -/
def State.Formed (s : State) : Prop :=
  ∀ o w, s.store.inProgress = some o → o.op = .office w → ∃ row, o.office = some row ∧ row.granted = (w.form s.officeImage).granted
    ∧ row.spent = (w.form s.officeImage).spent ∧ row.commitCounts = (w.form s.officeImage).commitCounts

/-- An operation after start-up fits the units, `held` giving what each engine has reserved: a commit's marker carries the
amount reserved and the next commit count, and stands in the commit row until the office row is written (R158); the commit
row is cleared with nothing reserved; a key operation's slot is CHANGING, and no other slot holds the generation it loads
(R66, R69, R70). -/
def RowOp.Lawful (held : EngineId → Nat) (s : State) : RowOp → Prop
  | .commitMarker e m => m.tender = held e ∧ m.count = s.authority.commitCounts.get e + 1
  | .commitMeter e m | .office (.commit e m) =>
    m.tender = held e ∧ m.count = s.authority.commitCounts.get e + 1 ∧ (s.memory.commits.get e).content = some m
  | .commitClear e => held e = 0
  | .loadKey i k => s.slots[i].state = .changing ∧ ∀ j : SlotId, j ≠ i → s.slots[j].generation ≠ some k.generation
  | .dropKey i _ => s.slots[i].state = .changing
  | op => op.startupStep = none

/-- The units once start-up is over: spent and reserved are at most granted (R127, R132); the reserved amount is what the two
engines hold; the office row, the commit rows and the key rows agree with the units (R65, R66, R128, R158); a slot's in-use
count is the number of items that use it, each loaded (R66); and a CHANGING slot has its operation in the store (R69, R70). -/
structure State.UnitsLive (s : State) : Prop where
  office : s.office ≠ .starting
  within : s.authority.spent + s.authority.reserved ≤ s.authority.granted
  held : s.authority.reserved = s.amountHeld .a + s.amountHeld .b
  row : s.authority.agrees s.memory.office.content
  dues : ∀ e, s.memory.due e ≤ s.amountHeld e
  keys : s.memory.keysDistinct
  slots : ∀ i : SlotId, s.slots[i].matches (s.memory.keys[i]).content
  counts : ∀ i : SlotId, s.slots[i].inUse = (s.slotsHeld .a).count i + (s.slotsHeld .b).count i
  loaded : ∀ e, ∀ i ∈ s.slotsHeld e, (s.slots[i].generation).isSome
  changing : ∀ i : SlotId, s.slots[i].state = .changing → ∃ op ∈ s.store.operations, op.keySlot = some i
  ops : ∀ op ∈ s.store.operations, op.Lawful s.amountHeld s
  formed : s.Formed

/-- The units as start-up's first step leaves them: the values of the office rows, nothing reserved and no slot in use or
CHANGING (R167). -/
structure State.UnitsFresh (s : State) : Prop where
  row : s.authority.agrees s.memory.office.content
  reserved : s.authority.reserved = 0
  slots : ∀ i : SlotId, s.slots[i].matches (s.memory.keys[i]).content ∧ s.slots[i].state ≠ .changing ∧ s.slots[i].inUse = 0

/-- An operation of start-up fits what start-up has done (R160, R167 to R169): once the office rows are read the units are
fresh, engine B's commit row comes after engine A's, a marker is written forward while it stands in its commit row, and the
scan comes once no commit row has an amount due. -/
def RowOp.StartLawful (s : State) : RowOp → Prop
  | .startOffice _ => True
  | .startCommit e => s.UnitsFresh ∧ (e = .b → s.memory.due .a = 0)
  | .rollMeter e m => s.UnitsFresh ∧ (s.memory.commits.get e).content = some m ∧ (e = .b → s.memory.due .a = 0)
  | .office (.rollForward e m) =>
    s.UnitsFresh ∧ (s.memory.commits.get e).content = some m ∧ m.count ≠ s.authority.commitCounts.get e
      ∧ (e = .b → s.memory.due .a = 0)
  | .rollClear e => s.UnitsFresh ∧ s.memory.due e = 0 ∧ (e = .b → s.memory.due .a = 0)
  | .scan _ => s.UnitsFresh ∧ ∀ e, s.memory.due e = 0
  | _ => False

/-- The units until start-up is over: no engine is BUSY, the link is not WORKING, no minute step is due, and the store holds
start-up's operations alone (R166). -/
structure State.UnitsStarting (s : State) : Prop where
  office : s.office ≠ .ready
  engines : ∀ e, s.busyEngine e = none
  link : s.isWorking = false
  minute : s.authority.prescaler = 0
  within : s.authority.spent + s.authority.reserved ≤ s.authority.granted
  memory : s.memory.Lawful
  ops : ∀ op ∈ s.store.operations, op.StartLawful s
  formed : s.Formed

/-- The units are lawful, during start-up or after it. -/
def State.UnitsLawful (s : State) : Prop :=
  s.UnitsStarting ∨ s.UnitsLive

/-! ### All laws -/

/-- A lawful state: record memory in its canonical form, and the laws of the store's tables and rows, the supply, the lock
table, the lanes, the work in hand, and the units with their rows. -/
def State.Lawful (s : State) : Prop :=
  s.memory.wf ∧ s.store.Lawful ∧ s.store.RowsLawful ∧ s.SupplyLawful ∧ s.locks.Distinct ∧ s.LanesLawful ∧ s.WorkLawful
    ∧ s.UnitsLawful

/-- The step from a state is safe: the part goes on, to a lawful state. -/
def State.StepsSafely (s : State) : Prop :=
  ∃ t, step s = .next t ∧ t.Lawful

end Sys2Proof.Machine
end

