-- ==== Sys2Proof/Certificates/Slice0/Obligations.lean ====
section
/-! DEFINITION. The statements for the provers: what the VC-8's rules say of its commands, its operations and its lawful
states. A clause that rests on a choice of the model names its log entry. -/

open Sys2Proof Sys2Proof.Machine

/-! ## The queue, the link and its frames -/

/-- The command at the front of the queue is the one that runs, on the state with the queue's rest; with nothing queued the
part idles. The queue is the model's own (log entries 2 and 30). -/
def Obligations.StepRunsFrontCommand : Prop :=
  (∀ (c : Instr) (rest : List Instr) (s : State), s.pending = c :: rest → step s = exec c { s with pending := rest })
    ∧ ∀ s : State, s.pending = [] → step s = .next s

/-- Every command goes on to a next state from every state, and leaves the model's queue as it is. No rule says so: that no
event stops the part is the model's choice (log entry 27), and the queue is the model's own (log entry 30). -/
def Obligations.EveryCommandGoesOnAndKeepsTheQueue : Prop :=
  ∀ (c : Instr) (s : State), ∃ t, exec c s = .next t ∧ t.pending = s.pending

/-- While RESET is held no frame is taken (R165, R174); outside it, a frame that arrives while a reply is being formed or
waits to be read is discarded: it changes nothing but the overlap mark of the reply in hand (R175). -/
def Obligations.FramesNotTaken : Prop :=
  ∀ (k : Kind) (lane : LaneId) (tag : Tag) (body bytes : List Byte) (s : State), carriesFrame bytes = true →
    (s.resetHeld = true → exec (commandOf k lane tag body) s = .next s ∧ exec (.badFrame bytes) s = .next s
      ∧ exec (.frameDiscarded bytes) s = .next s)
    ∧ (s.resetHeld = false →
      (∀ l h o, s.exchange = .working l h o →
        exec (commandOf k lane tag body) s = .next { s with exchange := .working l h true }
        ∧ exec (.badFrame bytes) s = .next { s with exchange := .working l h true }
        ∧ exec (.frameDiscarded bytes) s = .next { s with exchange := .working l h true })
      ∧ ∀ r, s.exchange = .replyReady r →
        exec (commandOf k lane tag body) s = .next { s with exchange := .replyReady { r with overlap := true } }
        ∧ exec (.badFrame bytes) s = .next { s with exchange := .replyReady { r with overlap := true } }
        ∧ exec (.frameDiscarded bytes) s = .next { s with exchange := .replyReady { r with overlap := true } })

/-- Check 4 of R176: while the office is STARTING or in FAULT every request but READ_STATUS is refused with that code, on
every lane. Check 5, and the admission of R79 and R177: a supervisor request on lanes 1 to 7 is refused NOT_SUPERVISOR; on
lane 0, unless lane 0 is OPEN and unlocked, LANE_STATE, but for READ_STATUS and an OPEN_LANE that names lane 0 while lane 0
is CLOSED (that its first body byte says so is log entry 15). The frame sets the lane's idle seconds to 0. -/
def Obligations.RequestsAreTurnedAway : Prop :=
  ∀ (k : Kind) (lane : LaneId) (tag : Tag) (body : List Byte) (s : State), s.resetHeld = false → s.exchange = .idle →
    s.tickSettled = true →
    let refused := fun code => exec (commandOf k lane tag body) s
      = .next (s.replied k lane tag { s.lane lane with idle := 0 } code .empty)
    (s.office = .starting → k ≠ .readStatus → refused .starting)
    ∧ (s.office = .fault → k ≠ .readStatus → refused .fault)
    ∧ (s.office = .ready → k.isCounter = false →
      (lane ≠ 0 → refused .notSupervisor)
      ∧ (lane = 0 → s.supervisorOpen = false → k ≠ .readStatus →
        (k = .openLane → (s.lane 0).state ≠ .closed ∨ namesLaneZero body = false) → refused .laneState))

/-- BAD_FRAME's bytes by the first three checks of R176: no start byte changes nothing (R174); a failed check 1 is answered
BAD_FRAME with lane, kind and tag 0; a failed check 2 BAD_LANE, on no lane and with no warning mark; a failed check 3
UNKNOWN_REQUEST, which resets the lane's idle seconds and carries its warning mark. -/
def Obligations.BadFrameAnswers : Prop :=
  ∀ (bytes : List Byte) (s : State), s.resetHeld = false → s.exchange = .idle → s.tickSettled = true →
    (carriesFrame bytes = false → exec (.badFrame bytes) s = .next s)
    ∧ (carriesFrame bytes = true → frameVerifies (frameOf bytes) = false →
      exec (.badFrame bytes) s = .next { s with exchange := .replyReady ⟨⟨0, 0, 0⟩, .badFrame, false, false, .empty⟩ })
    ∧ (∀ h, classify bytes = .badLane h →
      8 ≤ h.lane.toNat
        ∧ exec (.badFrame bytes) s = .next { s with exchange := .replyReady ⟨h, .badLane, false, false, .empty⟩ })
    ∧ ∀ lane h, classify bytes = .unknownRequest lane h →
      h.lane.toNat = lane.val ∧ (h.kind.toNat = 0 ∨ 33 < h.kind.toNat)
        ∧ exec (.badFrame bytes) s
          = .next { s with
              lanes := s.lanes.set lane { s.lane lane with idle := 0 }
              exchange := .replyReady ⟨h, .unknownRequest, (s.lane lane).warns, false, .empty⟩ }

/-- R174: a selection in REPLY_READY that clocks out every byte of the reply frees the link; a shorter one leaves the reply
unread. READY is high in REPLY_READY and low in the other two states. -/
def Obligations.ReplyReadFreesLink : Prop :=
  ∀ (count : Nat) (r : Reply) (s : State), s.exchange = .replyReady r →
    ((replyFrame r).length ≤ count → exec (.replyRead count) s = .next { s with exchange := .idle })
    ∧ (count < (replyFrame r).length → exec (.replyRead count) s = .next s)
    ∧ s.readyLine = true ∧ (∀ t : State, (∀ q, t.exchange ≠ .replyReady q) → t.readyLine = false)

/-- Encode and decode agree on every request: the frame of a well-formed request command, after any bytes that hold no start
byte, decodes to that command with its kind, lane, tag and every byte of its body. -/
def Obligations.FramesDecodeToTheirRequest : Prop :=
  ∀ (c : Instr) (bytes before : List Byte), WellFormed c → encodeRequest c = some bytes → carriesFrame before = false →
    decodeSelection (before ++ bytes) = c

/-- The frame check of R187 finds every error of one byte: a frame that verifies, with one of its bytes after the start
byte changed, verifies no more. -/
def Obligations.OneWrongByteFailsTheCheck : Prop :=
  ∀ (front back : List Byte) (good bad : Byte), frameVerifies (startByte :: front ++ good :: back) = true → good ≠ bad →
    frameVerifies (startByte :: front ++ bad :: back) = false

/-! ## Timers -/

/-- R85 and R140: with nothing left due, a TICK raises the idle seconds of every OPEN or RESTRICTED unlocked lane by one and
leaves every other lane as it is, and raises the day-age prescaler by one while the office is READY. Reaching the idle
limit makes the lane's idle expiry due (log entry 3). -/
def Obligations.TickCounts : Prop :=
  ∀ s : State, s.tickSettled = true → exec .tick s = .next { s with
    lanes := s.lanes.map fun l =>
      if (l.state = .opened ∨ l.state = .restricted) ∧ l.locked = false then
        { l with idle := l.idle + 1, expiryDue := decide (s.settings.idleLimit ≤ l.idle + 1) }
      else l
    authority := if s.office = .ready then { s.authority with prescaler := s.authority.prescaler + 1 } else s.authority }

/-- R86: a due idle expiry sets the lane's lock flag and its idle seconds to 0 and touches nothing else. R140 to R142: a due
day-age minute sets the prescaler to 0 and raises the day age, held at 65,535; at the day limit with the flag clear it sets the
overdue flag and DAY_OVERDUE; the flag, or a new whole number of hours, has one office-row write placed. A step that is not
due changes nothing (log entry 1). -/
def Obligations.TimerStepsAct : Prop :=
  (∀ (lane : LaneId) (s : State),
    ((s.lane lane).expiryDue = true → exec (.idleExpiry lane) s = .next { s with
      lanes := s.lanes.set lane { s.lane lane with locked := true, idle := 0, expiryDue := false } })
    ∧ ((s.lane lane).expiryDue = false → exec (.idleExpiry lane) s = .next s))
  ∧ ∀ (s : State) (a : Authority), a = { s.authority with prescaler := 0, dayAge := min 65535 (s.authority.dayAge + 1) } →
    (s.authority.prescaler < 60 → exec .dayAgeMinute s = .next s)
    ∧ (60 ≤ s.authority.prescaler →
      (s.authority.overdue = false ∧ s.settings.dayLimit * 60 ≤ a.dayAge → exec .dayAgeMinute s
        = .next ({ s with authority := { a with overdue := true }, events := { s.events with dayOverdue := true } }.place
            (.office .dayAge)))
      ∧ (¬ (s.authority.overdue = false ∧ s.settings.dayLimit * 60 ≤ a.dayAge) →
        (s.authority.dayAge < 65535 ∧ a.dayAge % 60 = 0 →
          exec .dayAgeMinute s = .next ({ s with authority := a }.place (.office .dayAge)))
        ∧ (¬ (s.authority.dayAge < 65535 ∧ a.dayAge % 60 = 0) → exec .dayAgeMinute s = .next { s with authority := a })))

/-- What a TICK has left due comes first (log entry 3): a request on a free link, and the next TICK in any state of the link,
act as after the idle expiry of every lane and the day-age minute. -/
def Obligations.DueStepsComeFirst : Prop :=
  ∀ s t : State, t = s.after ((List.finRange 8).map Instr.idleExpiry ++ [.dayAgeMinute]) →
    t.tickSettled = true ∧ exec .tick s = exec .tick t
      ∧ (s.resetHeld = false → s.exchange = .idle → ∀ (k : Kind) (lane : LaneId) (tag : Tag) (body : List Byte),
        exec (commandOf k lane tag body) s = exec (commandOf k lane tag body) t)

/-! ## Supply and reset -/

/-- R162, R163 and R104: at a change of either input the supply state follows the two levels; when it differs, SUPPLY_CHANGE
is set and an engine B that is enabled and holds no request is IDLE in MAINS and PARKED otherwise; nothing else changes. R103:
ENABLE_ENGINE_B leaves a DISABLED engine B so too, and any other as it is; the reply says whether it was enabled now. -/
def Obligations.SupplyAndEngineB : Prop :=
  (supplyOf true false = .mains ∧ supplyOf false false = .battery ∧ ∀ m, supplyOf m true = .holding)
  ∧ (∀ (high : Bool) (s : State) (c : Instr) (t : State),
    (c = .mainsOkChange high ∧ t = { s with mainsOk := high } ∨ c = .pwrWarnChange high ∧ t = { s with pwrWarn := high }) →
    (supplyOf t.mainsOk t.pwrWarn = s.supply → exec c s = .next t)
    ∧ (supplyOf t.mainsOk t.pwrWarn ≠ s.supply → exec c s = .next { t with
        supply := supplyOf t.mainsOk t.pwrWarn
        events := { t.events with supplyChange := true }
        engines := ⟨s.engines.a,
          if s.engines.b = .disabled ∨ (s.busyEngine .b).isSome then s.engines.b
          else if supplyOf t.mainsOk t.pwrWarn = .mains then .idle else .parked⟩ }))
  ∧ ∀ (tag : Tag) (s : State), s.TakesSupervisor →
    (s.engines.b = .disabled → exec (.enableEngineB 0 tag []) s = .next
      ({ s with engines := ⟨s.engines.a, if s.supply = Supply.mains then .idle else .parked⟩ }.replied .enableEngineB 0 tag
        { s.lane 0 with idle := 0 } .done (.engineEnabled true)))
    ∧ (s.engines.b ≠ .disabled → exec (.enableEngineB 0 tag []) s
      = .next (s.replied .enableEngineB 0 tag { s.lane 0 with idle := 0 } .done (.engineEnabled false)))

/-- R165 and R147. RESET_ASSERTED holds the part until the release. A reset leaves every volatile state at its reset value,
takes the supply state from the inputs and begins start-up. The queue and the grant key are kept (log entry 30, R65), the
units' settings are 0 until start-up (log entry 10), and the alarm exponent is the office row's (log entry 32). Record memory
is as it was when a row write in progress left its row old. When it left it new, with a read that had found the decay `d`
(the operand, log entry 6), memory is that of the write: clause by clause what each single row write leaves, and for an
operation with a read in it what that operation's own completion with `d` would leave. A commit's first write leaves its row
old in either case (R124). -/
def Obligations.ResetLeaves : Prop :=
  ∀ s : State, exec .resetAsserted s = .next { s with resetHeld := true }
    ∧ let restarted := fun (m : RecordMemory) => { State.reset with
        pending := s.pending, mainsOk := s.mainsOk, pwrWarn := s.pwrWarn, supply := supplyOf s.mainsOk s.pwrWarn
        grantKey := s.grantKey, memory := m
        store := { State.reset.store with alarmExponent := m.office.content.alarmExponent } }
      exec (.reset none) s = .next (restarted s.memory)
      ∧ ∀ d : Decay, let lands := fun (m : RecordMemory) => exec (.reset (some d)) s = .next (restarted m)
        (s.store.inProgress = none → lands s.memory)
        ∧ (∀ e k, s.current = some (.commitMarker e k) → lands s.memory)
        ∧ (∀ e k, s.current = some (.commitMeter e k) ∨ s.current = some (.rollMeter e k) →
          lands (s.memory.writeRecord k.row k.image))
        ∧ (∀ e, s.current = some (.commitClear e) ∨ s.current = some (.rollClear e) → lands (s.memory.writeCommit e none))
        ∧ (∀ w r, s.store.inProgress = some ⟨.office w, some r, none⟩ → lands (s.memory.writeOffice r))
        ∧ (∀ i b, s.current = some (.setTariff i b) → lands (s.memory.writeTariff i (some b)))
        ∧ (∀ i, s.current = some (.clearTariff i) → lands (s.memory.writeTariff i none))
        ∧ (∀ i k, s.current = some (.loadKey i k) → lands (s.memory.writeKey i (some k)))
        ∧ (∀ i g, s.current = some (.dropKey i g) → lands (s.memory.writeKey i none))
        ∧ (∀ n given names, s.current = some (.setLane n given names) → lands { s.memory with lanes := ⟨s.laneSettings.set n
            (if names then given else { given with maskA := (s.settingsOf n).maskA, maskB := (s.settingsOf n).maskB }), {}⟩ })
        ∧ ∀ c, (c = .recordWriteDone d ∧ (∃ op, s.current = some (.record op))
              ∨ c = .counterReadDone d ∧ (∃ l q, s.current = some (.counterRead l q))
              ∨ c = .itemReadDone d ∧ (∃ e m b i, s.current = some (.itemRead e m) ∧ s.busyEngine e = some b
                ∧ b.items[b.item]? = some i)
              ∨ c = .scrubberReadDone d ∧ (∃ id, s.current = some (.scrub id))
              ∨ c = .startupOfficeRowRead d ∧ (∃ id, s.current = some (.startOffice id))
              ∨ c = .commitRowRead d ∧ (∃ e, s.current = some (.startCommit e))
              ∨ c = .scanRowRead d ∧ (∃ n, s.current = some (.scan n))) →
            ∃ t, exec c s = .next t ∧ lands t.memory

/-- The state after reset is lawful, with the values that the rules give for a reset: every lane CLOSED and empty (R74), engine
A IDLE and engine B DISABLED (R102), lane 7 last served at every priority (R106), no lock and no claim (R109), no bank (R32),
every slot EMPTY with no use (R65, R66), the cipher FREE with engine B last served (R72), nothing reserved (R124), the prescaler 0 (R140), the
store's structures empty, the memory error count 0 and the scrubber at meter row 0 with no pass (R155, R161), the office STARTING
with its first read in progress (R166, R167), the link free (R174), every flag clear (R178) and the mask empty (R179). Record
memory holds its factory content (R145, R75, R182). That this reset is a first power-up, with MAINS_OK high and PWR_WARN low
for the supply state of R162, is the model's choice (log entry 7). -/
def Obligations.ResetStateIsLawful : Prop :=
  let s := State.reset
  s.Lawful
    ∧ (∀ l, s.lane l = { state := .closed, locked := false, operator := none, count := 0, idle := 0, expiryDue := false
                         queue := [], inFlight := [], foreground := none, background := none, tally := ⟨0, 0, 0, 0⟩ })
    ∧ s.engines = ⟨.idle, .disabled⟩ ∧ (∀ p : Fin 4, s.lastServed[p] = 7) ∧ s.locks = ⟨⟨none, none⟩, none, [], none⟩
    ∧ s.tariff = ⟨none, none, []⟩ ∧ (∀ i : SlotId, s.slots[i] = ⟨.empty, 0⟩) ∧ s.cipher = ⟨none, [], .b⟩
    ∧ s.authority.reserved = 0 ∧ s.authority.prescaler = 0
    ∧ s.store = { inProgress := some ⟨.startOffice .office, none, none⟩, waiting := [], index := [], freeList := [], conditions := []
                  damaged := [], orphans := [], overflow := false, errorCount := 0
                  alarmExponent := s.memory.office.content.alarmExponent, scrubber := ⟨.meter 0, 0, false⟩ }
    ∧ (∀ n, s.store.condition n = .undetermined)
    ∧ s.office = .starting ∧ s.faultRecord = none ∧ s.exchange = .idle ∧ s.events = ⟨false, false, false, false, false⟩
    ∧ s.settings.mask = ⟨false, false, false, false, false, false, false⟩
    ∧ (∀ n, s.memory.meterRow n = ⟨none, ⟨.sound, .sound, ⟨0, 0⟩⟩⟩)
    ∧ s.memory.office = ⟨{ granted := 0, spent := 0, lastSerial := 0, day := 0, month := 0, tally := ⟨0, 0, 0, 0, 0, 0, 0, 0, 0⟩
                           dayAgeHours := 0, overdue := false, commitCounts := ⟨0, 0⟩
                           settings := ⟨600, 26, 0, ⟨true, true, true, true, true, true, true⟩, 0, 0⟩, alarmExponent := 4 }, ⟨0, 0⟩⟩
    ∧ (∀ i : Fin 2, s.memory.tariffs[i] = ⟨none, ⟨0, 0⟩⟩) ∧ (∀ i : SlotId, s.memory.keys[i] = ⟨none, ⟨0, 0⟩⟩)
    ∧ (∀ e, s.memory.commits.get e = ⟨none, ⟨0, 0⟩⟩) ∧ s.memory.lanes.rot = ⟨0, 0⟩
    ∧ ∀ l : LaneId, let v := s.memory.lanes.content[l]
      v.priority = 1 ∧ v.maskA = true ∧ v.maskB = false ∧ v.batteryService = true ∧ v.mode = .wide
        ∧ ∀ j : Fin 8, v.code[j].cared = false

/-! ## Counter lanes -/

/-- R93 on a frame that the link takes while the office is READY: the checks in their order, and an accepted request joins the
end of the lane's queue and is answered ACCEPTED with the number now queued. BAD_METER_NUMBER and OUTSIDE_ZONE carry the
number of the first item that fails and charge the lane's count (R87). -/
def Obligations.VendAnswers : Prop :=
  ∀ (lane : LaneId) (tag : Tag) (body : List Byte) (s : State), s.Takes →
    let l := s.lane lane
    let refuse := fun code => s.replied .vend lane tag { l with idle := 0 } code .empty
    exec (.vend lane tag body) s = .next (
      if l.state ≠ .opened ∨ l.locked = true then refuse .laneState
      else if s.supply = .holding then refuse .supply
      else if s.authority.overdue = true then refuse .dayOverdue
      else if 4 ≤ l.queue.length then refuse .queueFull
      else if tag ∈ l.queue.map (·.tag) ∨ tag ∈ l.inFlight.map (·.1) ∨ some tag = l.foreground.map (·.tag)
          ∨ some tag = l.background.map (·.tag) then refuse .duplicateTag
      else match decodeVend body with
        | none => refuse .badField
        | some items =>
          if lane ≠ 0 ∧ ∃ i ∈ items, i.isService = true then refuse .notSupervisor
          else match firstFailing meterOk items with
            | some n => s.charged .vend lane tag 1 .badMeterNumber (.failingItem n)
            | none => match firstFailing (fun m => lane = 0 ∨ (zoneHit (s.settingsOf lane) m).isSome) items with
              | some n => s.charged .vend lane tag 8 .outsideZone (.failingItem n)
              | none => s.replied .vend lane tag { l with idle := 0, queue := l.queue ++ [⟨tag, items⟩] } .accepted
                  (.queued (l.queue.length + 1)))

/-- R95 and R99 with R79. CANCEL, taken while the lane is OPEN or RESTRICTED and unlocked, removes the tag's request from the
queue, answers TOO_LATE for a tag in flight or in a buffer, and NOT_FOUND for any other. COLLECT, taken then and while the lane
is BARRED, hands the foreground result over and moves the background result into its place, or answers NO_RESULT. That
CANCEL's tag is the frame's and its body empty is log entry 14. -/
def Obligations.CancelAndCollectAnswer : Prop :=
  ∀ (lane : LaneId) (tag : Tag) (s : State), s.Takes →
    let l := s.lane lane
    let cancel := fun x code => s.replied .cancel lane tag x code .empty
    let collect := fun x code body => s.replied .collect lane tag x code body
    exec (.cancel lane tag []) s = .next (
      if ¬ ((l.state = .opened ∨ l.state = .restricted) ∧ l.locked = false) then cancel { l with idle := 0 } .laneState
      else if tag ∈ l.queue.map (·.tag) then
        cancel { l with idle := 0, queue := l.queue.filter fun r => r.tag ≠ tag } .cancelled
      else if tag ∈ l.inFlight.map (·.1) ∨ some tag = l.foreground.map (·.tag) ∨ some tag = l.background.map (·.tag) then
        cancel { l with idle := 0 } .tooLate
      else cancel { l with idle := 0 } .notFound)
    ∧ exec (.collect lane tag []) s = .next (
      if ((l.state = .opened ∨ l.state = .restricted) ∧ l.locked = false) ∨ l.state = .barred then
        match l.foreground with
        | some r => collect { l with idle := 0, foreground := l.background, background := none } .done (.result r.outcomes)
        | none => collect { l with idle := 0 } .noResult .empty
      else collect { l with idle := 0 } .laneState .empty)

/-- R84 with R79: RESUME, taken while the lane is OPEN or RESTRICTED, clears the lock flag when the code is the operator's (on
lane 0, the supervisor code); a wrong code is answered BAD_OPERATOR, charges the count 8 and leaves the flag as it was; a
malformed code is BAD_FIELD before the comparison. -/
def Obligations.ResumeAnswers : Prop :=
  ∀ (lane : LaneId) (tag : Tag) (body : List Byte) (s : State), s.Takes →
    let l := s.lane lane
    exec (.resume lane tag body) s = .next (
      if l.state = .opened ∨ l.state = .restricted then
        match decodeCode body with
        | none => s.replied .resume lane tag { l with idle := 0 } .badField .empty
        | some code =>
          if (if lane = 0 then some s.settings.supervisorCode else l.operator.bind (·.code)) = some code then
            s.replied .resume lane tag { l with idle := 0, locked := false } .done .empty
          else s.charged .resume lane tag 8 .badOperator .empty
      else s.replied .resume lane tag { l with idle := 0 } .laneState .empty)

/-- R101: LANE_STATUS reports the lane it is sent on in every state, or on lane 0, while it is OPEN and unlocked, the lane it
names; it changes nothing but the idle seconds of the lane it is sent on. A counter lane may name none (BAD_FIELD). That the
lane is an optional field is log entry 16. -/
def Obligations.LaneStatusAnswers : Prop :=
  ∀ (lane : LaneId) (tag : Tag) (body : List Byte) (s : State), s.Takes →
    let reply := fun code b => s.replied .laneStatus lane tag { s.lane lane with idle := 0 } code b
    let report := fun (n : LaneId) (l : Lane) => ReplyBody.lane
      { lane := n, state := l.state, locked := l.locked, operatorId := l.operator.map (·.id), count := l.count
        warning := 96 ≤ l.count, idle := if n = lane then 0 else l.idle, queue := l.queue.map (·.tag), inFlight := l.inFlight
        foreground := l.foreground.map (·.tag), background := l.background.map (·.tag), tally := l.tally
        settings := s.settingsOf n }
    exec (.laneStatus lane tag body) s = .next (
      match decodeLaneStatus body with
      | none => reply .badField .empty
      | some none => reply .done (report lane (s.lane lane))
      | some (some n) =>
        if lane ≠ 0 then reply .badField .empty
        else if n = 0 ∨ s.supervisorOpen = true then reply .done (report n (s.lane n))
        else reply .laneState .empty)

/-- R81 and R82: OPEN_LANE of a CLOSED counter lane signs the operator on with count, idle seconds and tally 0; OPEN_LANE of a
CLOSED lane 0 needs the supervisor code, keeps the operator id alone, and charges lane 0 with 8 for a wrong code; a lane
that is not CLOSED is refused LANE_STATE. A body that does not decode is refused BAD_FIELD, where the request is admitted: a
malformed one is for lane 0 when its first byte is 0 (log entry 15). -/
def Obligations.OpenLaneAnswers : Prop :=
  (∀ (tag : Tag) (body : List Byte) (s : State), s.Takes → decodeOpenLane body = none →
    (s.supervisorOpen = true ∨ namesLaneZero body = true ∧ (s.lane 0).state = .closed) →
    exec (.openLane 0 tag body) s = .next (s.replied .openLane 0 tag { s.lane 0 with idle := 0 } .badField .empty))
  ∧ ∀ (tag : Tag) (body : List Byte) (n : LaneId) (id code : Nat) (s : State), s.Takes →
    decodeOpenLane body = some (n, id, code) → (s.supervisorOpen = true ∨ n = 0 ∧ (s.lane 0).state = .closed) →
    let opened := fun (l : Lane) (c : Option Nat) => { l with
      state := .opened, locked := false, operator := some ⟨id, c⟩, count := 0, idle := 0, expiryDue := false, tally := {} }
    exec (.openLane 0 tag body) s = .next (
      if (s.lane n).state ≠ .closed then s.replied .openLane 0 tag { s.lane 0 with idle := 0 } .laneState .empty
      else if n ≠ 0 then
        (s.setLane n (opened (s.lane n) (some code))).replied .openLane 0 tag { s.lane 0 with idle := 0 } .done .empty
      else if code ≠ s.settings.supervisorCode then s.charged .openLane 0 tag 8 .badOperator .empty
      else s.replied .openLane 0 tag (opened (s.lane 0) none) .done .empty)

/-- R83: CLOSE_LANE of a lane that is not CLOSED and holds no queued request, no in-flight tag and no result closes it, keeps
its tally and count and reports the tally; a CLOSED lane is LANE_STATE, a lane that is not quiet LANE_BUSY, a lane number
above 7 BAD_FIELD. -/
def Obligations.CloseLaneAnswers : Prop :=
  ∀ (tag : Tag) (b : Byte) (s : State), s.TakesSupervisor →
    let refuse := fun code => s.replied .closeLane 0 tag { s.lane 0 with idle := 0 } code .empty
    (8 ≤ b.toNat → exec (.closeLane 0 tag [b]) s = .next (refuse .badField))
    ∧ ∀ n : LaneId, b.toNat = n.val →
      let l := s.lane n
      exec (.closeLane 0 tag [b]) s = .next (
        if l.state = .closed then refuse .laneState
        else if l.queue ≠ [] ∨ l.inFlight ≠ [] ∨ l.foreground ≠ none ∨ l.background ≠ none then refuse .laneBusy
        else ((s.setLane 0 { s.lane 0 with idle := 0 }).setLane n
            { l with state := .closed, locked := false, operator := none, idle := 0, expiryDue := false }).completed 0
              (requestHeader .closeLane 0 tag) false .done (.shiftTally l.tally))

/-- R78: SET_LANE of a CLOSED counter lane, or of lane 0 with nothing queued, in flight or waiting, is placed with the record
store, else refused LANE_STATE; when its write completes, the lane-settings row and the lane take the settings, but for a
mask that names no engine, which leaves the mask in force, and the reply gives them. A body that does not decode is refused
BAD_FIELD. -/
def Obligations.SetLaneAnswersAndTakesEffect : Prop :=
  (∀ (tag : Tag) (body : List Byte) (s : State), s.TakesSupervisor → decodeSetLane body = none →
    exec (.setLane 0 tag body) s = .next (s.replied .setLane 0 tag { s.lane 0 with idle := 0 } .badField .empty))
  ∧ (∀ (tag : Tag) (body : List Byte) (n : LaneId) (given : LaneSettings) (names : Bool) (s : State), s.TakesSupervisor →
    decodeSetLane body = some (n, given, names) →
    exec (.setLane 0 tag body) s = .next (
      if (n ≠ 0 ∧ (s.lane n).state = .closed) ∨ (n = 0 ∧ (s.lane 0).queue = [] ∧ (s.lane 0).inFlight = []
          ∧ (s.lane 0).foreground = none ∧ (s.lane 0).background = none) then
        (s.working .setLane 0 tag).place (.setLane n given names)
      else s.replied .setLane 0 tag { s.lane 0 with idle := 0 } .laneState .empty))
  ∧ ∀ (n lane : LaneId) (given taken : LaneSettings) (names overlap : Bool) (h : Header) (s : State),
    s.current = some (.setLane n given names) → s.exchange = .working lane h overlap →
    taken = (if names then given else { given with maskA := (s.settingsOf n).maskA, maskB := (s.settingsOf n).maskB }) →
    exec .laneSettingsWriteDone s = .next ({ s with
      laneSettings := s.laneSettings.set n taken
      memory := { s.memory with lanes := ⟨s.laneSettings.set n taken, {}⟩ } }.finishOp.completed lane h overlap .done
        (.laneSettings taken))

/-- R91: CLEAR_LANE_COUNT sets the named lane's count to 0; a CLOSED or OPEN lane keeps its state and its lock flag, a RESTRICTED
or BARRED lane comes back OPEN and locked; the reply gives the state before. The idle seconds of a lane that it locks become
0 (log entry 19). -/
def Obligations.ClearLaneCountAnswers : Prop :=
  ∀ (tag : Tag) (b : Byte) (s : State), s.TakesSupervisor →
    (8 ≤ b.toNat → exec (.clearLaneCount 0 tag [b]) s
      = .next (s.replied .clearLaneCount 0 tag { s.lane 0 with idle := 0 } .badField .empty))
    ∧ ∀ n : LaneId, b.toNat = n.val →
      let l := (s.setLane 0 { s.lane 0 with idle := 0 }).lane n
      exec (.clearLaneCount 0 tag [b]) s = .next (((s.setLane 0 { s.lane 0 with idle := 0 }).setLane n
        (if l.state = .restricted ∨ l.state = .barred then
          { l with count := 0, state := .opened, locked := true, idle := 0, expiryDue := false }
        else { l with count := 0 })).completed 0 (requestHeader .clearLaneCount 0 tag) false .done (.priorState l.state))

/-- R87 to R89: a charge raises the count, held at 255; an OPEN counter lane whose count it raises to 128 or more becomes
RESTRICTED; an OPEN or RESTRICTED counter lane whose count it raises to 255 becomes BARRED, with its lock flag clear, its
queue empty and its idle seconds 0; a lane in another state, and lane 0, keeps its state. In-flight list, buffers,
operator and tally are kept. -/
def Obligations.ChargesRaiseTheCount : Prop :=
  ∀ (l : Lane) (isCounter : Bool) (n : Nat), l.count ≤ 255 → 0 < n →
    let x := l.raiseCount isCounter n
    x.count = min 255 (l.count + n) ∧ x.inFlight = l.inFlight ∧ x.foreground = l.foreground ∧ x.background = l.background
      ∧ x.operator = l.operator ∧ x.tally = l.tally
      ∧ (isCounter = false → x = { l with count := min 255 (l.count + n) })
      ∧ (l.state = .closed ∨ l.state = .barred → x = { l with count := min 255 (l.count + n) })
      ∧ (isCounter = true → l.count < 255 → l.state = .opened ∨ l.state = .restricted →
        (255 ≤ l.count + n → x.state = .barred ∧ x.locked = false ∧ x.queue = [] ∧ x.idle = 0)
        ∧ (128 ≤ l.count + n ∧ l.count + n < 255 → x = { l with count := l.count + n, state := .restricted })
        ∧ (l.count + n < 128 → x = { l with count := l.count + n }))

/-! ## Records: enquiries -/

/-- R14 and R50 with R79: LOOKUP, REPRINT and QUOTE, taken while the lane is OPEN or RESTRICTED and unlocked, are refused for a
malformed field, a wrong check digit (which charges the count 1) and a meter outside the zone (8), in that order; a request
that passes has its read placed with the store. -/
def Obligations.EnquiriesArePlaced : Prop :=
  ∀ (lane : LaneId) (tag : Tag) (body : List Byte) (s : State) (k : Kind) (c : Instr) (q : Option CounterQuery), s.Takes →
    (k = .lookup ∧ c = .lookup lane tag body ∧ q = (decodeMeter body).map .lookup
      ∨ k = .reprint ∧ c = .reprint lane tag body ∧ q = (decodeMeter body).map .reprint
      ∨ k = .quote ∧ c = .quote lane tag body ∧ q = (decodeQuote body).map fun p => .quote p.1 p.2) →
    let l := s.lane lane
    exec c s = .next (
      if ¬ ((l.state = .opened ∨ l.state = .restricted) ∧ l.locked = false) then
        s.replied k lane tag { l with idle := 0 } .laneState .empty
      else match q with
        | none => s.replied k lane tag { l with idle := 0 } .badField .empty
        | some query =>
          if meterOk query.meter = false then s.charged k lane tag 1 .badMeterNumber .empty
          else if lane ≠ 0 ∧ zoneHit (s.settingsOf lane) query.meter = none then
            s.charged k lane tag 8 .outsideZone .empty
          else (s.working k lane tag).place (.counterRead lane query))

/-- The read of a LOOKUP, REPRINT or QUOTE completes. NO_METER with no index entry, DAMAGED for a row in the damaged set, which
is not read again; a row that the read damages or orphans is answered so (R10, R12, R16). A record that is read (R8, R27, R28,
R50, R51): LOOKUP gives the row, the hit and the record rolled over to the current month, but a RETIRED one as stored; REPRINT
the last sale or NOT_FOUND; QUOTE the outcome on an ACTIVE record rolled over, and METER_STATE on any other. Nothing else
changes but what the read itself does. The outcome of a QUOTE (R51): CLASS_UNDEFINED, the refusal of the calculation with the
limits for LIMIT_LOW and LIMIT_HIGH, SEQUENCE_EXHAUSTED when the tokens would pass 99,999,999, or PASS with the values, the
kinds in group order and the first sequence, which is 0 with no token (log entry 37). -/
def Obligations.EnquiryReadsAnswer : Prop :=
  (∀ (lane l : LaneId) (q : CounterQuery) (h : Header) (overlap : Bool) (d : Decay) (s : State),
    s.current = some (.counterRead lane q) → s.exchange = .working l h overlap →
    let answers := fun (t : State) code body => exec (.counterReadDone d) s = .next (t.finishOp.completed l h overlap code body)
    (s.store.rowOf q.meter = none → answers s .noMeter .empty)
    ∧ ∀ n, s.store.rowOf q.meter = some n →
      (n ∈ s.store.damaged → answers s .damaged .empty)
      ∧ (n ∉ s.store.damaged →
        let t := s.readRecordRow n d
        (s.reading n d = .noNumber → answers t .noMeter .empty)
        ∧ (s.reading n d = .damaged → answers t .damaged .empty)
        ∧ ∀ r rolled, s.reading n d = .record r →
          rolled = (if r.monthStamp = s.authority.month then r
            else { r with monthEnergy := 0, chargePaid := 0, allowanceIssued := false, monthStamp := s.authority.month }) →
          (∀ m, q = .lookup m → answers t .done (.record ⟨n, if r.status = .retired then r else rolled,
            if lane = 0 then 0 else (zoneHit (s.settingsOf lane) m).getD 0⟩))
          ∧ (∀ m, q = .reprint m → (r.lastSale = none → answers t .notFound .empty)
            ∧ ∀ g, r.lastSale = some g → answers t .done (.sale g))
          ∧ ∀ m tender, q = .quote m tender → (r.status ≠ .active → answers t .meterState .empty)
            ∧ (r.status = .active →
              answers t .done (.quote (quoteOutcome (s.tariff.snapshot r.tariffClass) rolled tender)))))
  ∧ ∀ (r : MeterRecord) (tender : Nat), quoteOutcome none r tender = .classUndefined
    ∧ ∀ c : TariffClass,
      (∀ code, calculate c r tender = .error code →
        code = .limitLow ∧ quoteOutcome (some c) r tender = .limitLow c.tenderMin c.tenderMax
        ∨ code = .limitHigh ∧ quoteOutcome (some c) r tender = .limitHigh c.tenderMin c.tenderMax
        ∨ code = .amountOverflow ∧ quoteOutcome (some c) r tender = .amountOverflow
        ∨ code = .nothingDue ∧ quoteOutcome (some c) r tender = .nothingDue)
      ∧ ∀ v kinds, calculate c r tender = .ok v → kinds = (purchaseGroup r v).map (·.1) →
        quoteOutcome (some c) r tender =
          if kinds = [] then .pass v [] 0
          else if 99999999 < r.sequence + kinds.length then .sequenceExhausted
          else .pass v kinds (r.sequence + 1)

/-- R149 to R151: what a read of a meter row does by its findings. With nothing uncorrectable the row keeps its content and is
sound afterwards; an uncorrectable word keeps its findings; an uncorrectable sequence or body word puts the row in the
damaged set, an uncorrectable meter number makes it an orphan out of the index, and either sets ROW_DAMAGED unless the row
was in the set already. Corrected words raise the error count, held at 16,777,215. No other row changes. -/
def Obligations.ReadsTakeTheirFindings : Prop :=
  ∀ (n : Nat) (d : Decay) (s : State) (w : MeterWords) (t : State), w = (s.memory.meterRow n).words.after d →
    t = s.readRecordRow n d →
    t.store.errorCount = min 16777215 (s.store.errorCount + w.corrections)
    ∧ (∀ k, k ≠ n → t.memory.meterRow k = s.memory.meterRow k)
    ∧ t.memory = { s.memory with meters := t.memory.meters }
    ∧ (t.memory.meterRow n).content = (s.memory.meterRow n).content
    ∧ (w.number ≠ .uncorrectable → w.sequence ≠ .uncorrectable → w.body.lost = 0 →
      (t.memory.meterRow n).words = {}
        ∧ t = { s with memory := t.memory, store := { s.store with errorCount := t.store.errorCount } })
    ∧ (w.number ≠ .uncorrectable → (w.sequence = .uncorrectable ∨ 0 < w.body.lost) →
      (t.memory.meterRow n).words = w ∧ n ∈ t.store.damaged ∧ t.store.index = s.store.index
        ∧ t.store.condition n = s.store.condition n
        ∧ t.events = (if n ∈ s.store.damaged then s.events else { s.events with rowDamaged := true }))
    ∧ (w.number = .uncorrectable →
      (t.memory.meterRow n).words = w ∧ t.store.condition n = .orphan ∧ n ∉ t.store.damaged
        ∧ (∀ e ∈ t.store.index, e.2 ≠ n) ∧ (n ∈ t.store.orphans ∨ t.store.overflow = true)
        ∧ t.events = { s.events with rowDamaged := true })

/-! ## Records: the supervisor's requests -/

/-- R14 and R17, R23: ENROL and PURGE_ROW are checked on receipt and placed with the store; they do not consult the lock table.
A wrong check digit charges lane 0's count 1. -/
def Obligations.EnrolAndPurgeRowArePlaced : Prop :=
  ∀ (tag : Tag) (body : List Byte) (s : State), s.TakesSupervisor →
    exec (.enrol 0 tag body) s = .next (match decodeEnrol body with
      | none => s.replied .enrol 0 tag { s.lane 0 with idle := 0 } .badField .empty
      | some f =>
        if meterOk f.meter = false then s.charged .enrol 0 tag 1 .badMeterNumber .empty
        else (s.working .enrol 0 tag).place (.record (.enrol f)))
    ∧ exec (.purgeRow 0 tag body) s = .next (match decodePurgeRow body with
      | none => s.replied .purgeRow 0 tag { s.lane 0 with idle := 0 } .badField .empty
      | some n => (s.working .purgeRow 0 tag).place (.record (.purgeRow n)))

/-- R14 and R15: AMEND, RETIRE, REINSTATE and PURGE are checked on receipt and reach the meter lock table: placed with the store
when nothing holds the meter, refused METER_BUSY when an engine does, and left to wait when the scrubber does. That a meter
with no holder but a waiting engine claim counts as held by nothing is the model's choice (log entry 11). -/
def Obligations.RecordEditsConsultTheLocks : Prop :=
  ∀ (tag : Tag) (body : List Byte) (s : State) (k : Kind) (c : Instr) (op : Option (RecordOp × MeterNumber)),
    s.TakesSupervisor →
    (k = .amend ∧ c = .amend 0 tag body ∧ op = (decodeAmend body).map (fun f => (.amend f, f.meter))
      ∨ k = .retire ∧ c = .retire 0 tag body ∧ op = (decodeMeter body).map (fun m => (.retire m, m))
      ∨ k = .reinstate ∧ c = .reinstate 0 tag body ∧ op = (decodeMeter body).map (fun m => (.reinstate m, m))
      ∨ k = .purge ∧ c = .purge 0 tag body ∧ op = (decodeMeter body).map (fun m => (.purge m, m))) →
    exec c s = .next (match op with
      | none => s.replied k 0 tag { s.lane 0 with idle := 0 } .badField .empty
      | some (o, m) =>
        if meterOk m = false then s.charged k 0 tag 1 .badMeterNumber .empty
        else if s.locks.engines.a = some m ∨ s.locks.engines.b = some m then
          s.replied k 0 tag { s.lane 0 with idle := 0 } .meterBusy .empty
        else if s.locks.scrubber = some m then
          { s.working k 0 tag with locks := { s.locks with supervisor := some o } }
        else (s.working k 0 tag).place (.record o))

/-- R24 and R15: RESTORE is checked on receipt and its verification reaches the cipher; when that completes, a wrong
authentication is BAD_AUTH, and a right one takes the request to the lock table; a meter with no holder but a waiting engine
claim counts there as held by nothing, by the model's choice (log entry 11). That the authenticated bytes are the 42 of
the image is R189's, and the authentication value is an uninterpreted constant (log entries 8 and 24). -/
def Obligations.RestoreIsVerified : Prop :=
  (∀ (tag : Tag) (body : List Byte) (s : State), s.TakesSupervisor →
    exec (.restore 0 tag body) s = .next (match decodeRestore body with
      | none => s.replied .restore 0 tag { s.lane 0 with idle := 0 } .badField .empty
      | some f =>
        if meterOk f.image.meter = false then s.charged .restore 0 tag 1 .badMeterNumber .empty
        else { s.working .restore 0 tag with
          cipher := match s.cipher.busy with
            | none => { s.cipher with busy := some (.restore f) }
            | some _ => { s.cipher with waiting := s.cipher.waiting ++ [.restore f] } }))
  ∧ ∀ (f : RestoreFields) (lane : LaneId) (h : Header) (overlap : Bool) (s t : State), s.cipher.busy = some (.restore f) →
    s.exchange = .working lane h overlap → t = { s with cipher := s.cipher.complete } →
    exec .restoreVerified s = .next (
      if f.authentication ≠ Config.authentication s.grantKey f.message then t.completed lane h overlap .badAuth .empty
      else if s.locks.engines.a = some f.image.meter ∨ s.locks.engines.b = some f.image.meter then
        t.completed lane h overlap .meterBusy .empty
      else if s.locks.scrubber = some f.image.meter then
        { t with locks := { s.locks with supervisor := some (.restore f) } }
      else t.place (.record (.restore f)))

/-- R15: a supervisor request that waited is taken again once the scrubber names the meter no longer: refused METER_BUSY if an
engine has claimed it first, else placed. R110: the first waiting claim on a meter that no holder names is granted: it leaves
the list, the engine's entry names the meter, the engine reads the trading month (R113) and asks the store for the row. With
nothing to retake, nothing changes (log entry 1). -/
def Obligations.WaitersAreRetaken : Prop :=
  ∀ s : State, (s.locks.supervisor = none → exec .waitingSupervisorRetaken s = .next s)
    ∧ (∀ (op : RecordOp) (m : MeterNumber) (lane : LaneId) (h : Header) (overlap : Bool), s.locks.supervisor = some op →
      op.lockMeter = some m → s.exchange = .working lane h overlap →
      exec .waitingSupervisorRetaken s = .next (
        let t := { s with locks := { s.locks with supervisor := none } }
        if s.locks.scrubber = some m then s
        else if s.locks.engines.a = some m ∨ s.locks.engines.b = some m then t.completed lane h overlap .meterBusy .empty
        else t.place (.record op)))
    ∧ ((∀ c ∈ s.locks.waiting, s.locks.free c.2 = false) → exec .claimRetaken s = .next s)
    ∧ ∀ front back e m b, s.locks.waiting = front ++ (e, m) :: back → (∀ c ∈ front, s.locks.free c.2 = false) →
      s.locks.engines.a ≠ some m → s.locks.engines.b ≠ some m → s.locks.scrubber ≠ some m → s.busyEngine e = some b →
      exec .claimRetaken s = .next ({ s with
        locks := { s.locks with engines := s.locks.engines.set e (some m), waiting := front ++ back }
        engines := s.engines.set e (.busy { b with
          stage := .read, work := { b.work with month := s.authority.month } }) }.place (.itemRead e m))

/-! ## The record store -/

/-- R148: the store carries out one operation at a time, in order of arrival. An operation that arrives while another is in
progress joins the end of the list; a completion takes the first, as an idle store takes one that arrives. R128: as it takes a
write of the office row, the row is formed from the current value of every field with the change of that write applied; the stored day age is the unit's whole
hours (log entry 23). Nothing outside the store changes. -/
def Obligations.StoreWorksInOrderOfArrival : Prop :=
  ∀ s : State,
    (∀ op : RowOp, (s.store.inProgress = none → (s.place op).current = some op
        ∧ (s.place op).store.waiting = s.store.waiting ∧ s.place op = { s with store := (s.place op).store })
      ∧ (s.store.inProgress ≠ none → s.place op = { s with store := { s.store with waiting := s.store.waiting ++ [op] } })
      ∧ (s.store.waiting = [] → s.finishOp = { s with store := { s.store with inProgress := none } })
      ∧ ∀ rest, s.store.waiting = op :: rest → s.finishOp.current = some op ∧ s.finishOp.store.waiting = rest
        ∧ s.finishOp = { s with store := s.finishOp.store }
        ∧ s.finishOp = { s with store := { s.store with inProgress := none, waiting := rest } }.place op)
    ∧ ∀ (w : OfficeWrite) (row : OfficeRow), s.store.inProgress = none →
      row = ⟨s.authority.granted, s.authority.spent, s.authority.lastSerial, s.authority.day, s.authority.month,
        s.authority.tally, s.authority.dayAge / 60, s.authority.overdue, s.authority.commitCounts, s.settings,
        s.store.alarmExponent⟩ →
      s.place (.office w) = { s with store := { s.store with inProgress := some ⟨.office w, some (match w with
        | .grant amount serial => { row with granted := row.granted + amount, lastSerial := serial }
        | .closeDay => { row with day := row.day + 1, tally := {}, dayAgeHours := 0, overdue := false }
        | .closeMonth => { row with month := row.month + 1 }
        | .dayAge => row
        | .commit e m | .rollForward e m =>
          { row with
            spent := row.spent + m.tender
            tally := row.tally.add m.increments
            commitCounts := row.commitCounts.set e m.count }
        | .setOffice settings => { row with settings := settings }
        | .setAlarm exponent _ => { row with alarmExponent := exponent }), none⟩ } }

/-! ## Records: the supervisor's operations at the store -/

/-- R11, R17 and R26: ENROL of a meter that has no index entry, and RESTORE of one with no target row named, take the
lowest-numbered free row, which becomes ALLOCATED and leaves the free list. They take it as the store takes the operation, at
once when it is idle or from the front of its list (R148); with an index entry, a target or no free row they take none. When
the write of an ENROL completes, the row holds the new record, is RECORD and is indexed, and the reply gives it. With the meter
indexed it is refused DUPLICATE_METER, with no free row TABLE_FULL. -/
def Obligations.EnrolCreatesARecord : Prop :=
  (∀ (s t : State) (op : RowOp) (m : MeterNumber) (target : Option Nat) (waiting : List RowOp), s.store.Lawful →
    ((∃ f, op = .record (.enrol f) ∧ m = f.meter ∧ target = none)
      ∨ ∃ f, op = .record (.restore f) ∧ m = f.image.meter ∧ target = f.target) →
    (s.store.inProgress = none ∧ s.store.waiting = waiting ∧ t = s.place op ∨ s.store.waiting = op :: waiting ∧ t = s.finishOp) →
    (s.store.rowOf m ≠ none ∨ target ≠ none ∨ s.store.freeList = [] →
      t = { s with store := { s.store with inProgress := some ⟨op, none, none⟩, waiting := waiting } })
    ∧ ∀ n rest, s.store.rowOf m = none → target = none → s.store.freeList = n :: rest →
      t.current = some op ∧ t.store.waiting = waiting ∧ t.takenRow = some n ∧ t.store.freeList = rest ∧ t.store.condition n = .allocated
        ∧ ∀ k ∈ rest, n < k ∧ t.store.condition k = s.store.condition k)
  ∧ ∀ (f : EnrolFields) (lane : LaneId) (h : Header) (overlap : Bool) (d : Decay) (s : State),
    s.current = some (.record (.enrol f)) → s.exchange = .working lane h overlap →
    (∀ n, s.takenRow = some n → exec (.recordWriteDone d) s = .next ({ s with
        memory := s.memory.writeRecord n
          { meter := f.meter, status := .active, tariffClass := f.tariffClass, keyGeneration := f.keyGeneration
            pendingGeneration := none, sequence := f.sequenceFloor, monthStamp := s.authority.month, monthEnergy := 0
            chargePaid := 0, allowanceIssued := false, arrears := f.arrears, recoveryRate := f.recoveryRate, carry := 0
            lastSale := none }
        store := (s.store.setCondition n .record).indexMeter f.meter n }.finishOp.completed lane h overlap .done (.row n)))
    ∧ (s.takenRow = none → exec (.recordWriteDone d) s = .next (s.finishOp.completed lane h overlap
        (if s.store.rowOf f.meter = none then .tableFull else .duplicateMeter) .empty))

/-- Steps 1 to 7 of R16 for AMEND, RETIRE, REINSTATE and PURGE: NO_METER, DAMAGED, then the read with its findings, then
METER_STATE for a status that does not suit (R18, R20 to R22), and the write. AMEND replaces the named fields, a pending
generation equal to the key generation becoming absent (R19); RETIRE and REINSTATE change the status alone. -/
def Obligations.RecordEditsComplete : Prop :=
  ∀ (op : RecordOp) (m : MeterNumber) (lane : LaneId) (h : Header) (overlap : Bool) (d : Decay) (s : State),
    s.current = some (.record op) → s.exchange = .working lane h overlap →
    ((∃ f : AmendFields, op = .amend f ∧ m = f.meter) ∨ op = .retire m ∨ op = .reinstate m ∨ op = .purge m) →
    let answers := fun (t : State) code => exec (.recordWriteDone d) s = .next (t.finishOp.completed lane h overlap code .empty)
    (s.store.rowOf m = none → answers s .noMeter)
    ∧ ∀ n, s.store.rowOf m = some n →
      (n ∈ s.store.damaged → answers s .damaged)
      ∧ (n ∉ s.store.damaged →
        let t := s.readRecordRow n d
        (s.reading n d = .noNumber → answers t .noMeter)
        ∧ (s.reading n d = .damaged → answers t .damaged)
        ∧ ∀ r, s.reading n d = .record r →
          (∀ f, op = .amend f → (r.status = .retired → answers t .meterState)
            ∧ (r.status ≠ .retired → answers { t with memory := t.memory.writeRecord n { r with
                tariffClass := f.tariffClass.getD r.tariffClass
                arrears := f.arrears.getD r.arrears
                recoveryRate := f.recoveryRate.getD r.recoveryRate
                status := f.status.getD r.status
                pendingGeneration :=
                  if f.removePending then none
                  else if f.pendingGeneration = none then r.pendingGeneration
                  else if f.pendingGeneration = some r.keyGeneration then none
                  else f.pendingGeneration } } .done))
          ∧ (op = .retire m → (r.status = .retired → answers t .meterState)
            ∧ (r.status ≠ .retired →
              answers { t with memory := t.memory.writeRecord n { r with status := .retired } } .done))
          ∧ (op = .reinstate m → (r.status ≠ .retired → answers t .meterState)
            ∧ (r.status = .retired →
              answers { t with memory := t.memory.writeRecord n { r with status := .active } } .done))
          ∧ (op = .purge m → r.status ≠ .retired → answers t .meterState))

/-- R22 and R23: PURGE of a RETIRED record writes its row free, out of the index and onto the free list at its place. PURGE_ROW
does so with an orphan row that no item in hand has read, and the row leaves the orphan list; it is refused NOT_FOUND on a row
that is no orphan, and METER_BUSY on one that an item in hand has read. A listed row that leaves the list is taken out, and
the lowest-numbered orphan row that is then unlisted joins the end; an unlisted row leaves the list as it was; the overflow
mark is set while an orphan row remains unlisted and clear otherwise. -/
def Obligations.PurgesFreeTheRow : Prop :=
  (∀ (n : Nat) (lane : LaneId) (h : Header) (overlap : Bool) (d : Decay) (s : State), s.exchange = .working lane h overlap →
    s.store.Lawful →
    (∀ m r t, s.current = some (.record (.purge m)) → s.store.rowOf m = some n → n ∉ s.store.damaged →
      s.reading n d = .record r → r.status = .retired → t = s.readRecordRow n d →
      exec (.recordWriteDone d) s = .next ({ t with
        memory := t.memory.writeFree n
        store := { (t.store.unindexRow n).setCondition n .free with freeList := insertRising n t.store.freeList }
        }.finishOp.completed lane h overlap .done .empty))
    ∧ (s.current = some (.record (.purgeRow n)) →
      (s.store.condition n ≠ .orphan →
        exec (.recordWriteDone d) s = .next (s.finishOp.completed lane h overlap .notFound .empty))
      ∧ (s.store.condition n = .orphan →
        ((∃ e b, s.busyEngine e = some b ∧ b.work.row = some n) →
          exec (.recordWriteDone d) s = .next (s.finishOp.completed lane h overlap .meterBusy .empty))
        ∧ (¬ (∃ e b, s.busyEngine e = some b ∧ b.work.row = some n) →
          exec (.recordWriteDone d) s = .next ({ s with
            memory := s.memory.writeFree n
            store := { s.store.setCondition n .free with freeList := insertRising n s.store.freeList }.unlistOrphan n
            }.finishOp.completed lane h overlap .done .empty)))))
  ∧ ∀ (n : Nat) (t : Store) (x : Store) (rest : List Nat), t.Lawful → x = t.unlistOrphan n →
    rest = t.orphans.filter (· ≠ n) →
    let unlisted := fun (orphans : List Nat) k => t.condition k = .orphan ∧ k ∉ orphans
    x = { t with orphans := x.orphans, overflow := x.overflow }
      ∧ (x.overflow = true ↔ ∃ k, unlisted x.orphans k)
      ∧ (n ∉ t.orphans → x.orphans = t.orphans)
      ∧ (n ∈ t.orphans → (∀ k, ¬ unlisted rest k) → x.orphans = rest)
      ∧ (n ∈ t.orphans → ∀ k, unlisted rest k → (∀ j, unlisted rest j → k ≤ j) → x.orphans = rest ++ [k])

/-- R25 and R26: RESTORE writes the image, with its rate held at 50, its stamp at the current month, a pending generation equal
to its key generation absent and no last sale: over the indexed row, into the orphan row it names, or into the free row it
took. Over a row whose sequence word can be read, the sequence written is the larger of the two. -/
def Obligations.RestoreWritesTheImage : Prop :=
  ∀ (f : RestoreFields) (image : MeterRecord) (lane : LaneId) (h : Header) (overlap : Bool) (d : Decay) (s : State),
    s.current = some (.record (.restore f)) → s.exchange = .working lane h overlap →
    image = { f.image with
      recoveryRate := min f.image.recoveryRate 50
      monthStamp := min f.image.monthStamp s.authority.month
      pendingGeneration := if f.image.pendingGeneration = some f.image.keyGeneration then none else f.image.pendingGeneration
      lastSale := none } →
    let refused := fun code => exec (.recordWriteDone d) s = .next (s.finishOp.completed lane h overlap code .empty)
    let overRow := fun n => { image with
      sequence :=
        if (s.wordsAt n d).sequence = .uncorrectable then image.sequence
        else max ((s.memory.meterRow n).content.elim 0 (·.sequence)) image.sequence }
    let counted := fun n => { s.store with
      errorCount := min 16777215 (s.store.errorCount + (s.wordsAt n d).corrections) }
    (∀ n, s.store.rowOf f.image.meter = some n →
      (f.target ≠ none → refused .badField)
      ∧ (f.target = none → exec (.recordWriteDone d) s = .next ({ s with
          memory := s.memory.writeRecord n (overRow n), store := (counted n).undamage n }.finishOp.completed lane h overlap .done
            (.sequence (overRow n).sequence))))
    ∧ (s.store.rowOf f.image.meter = none →
      (∀ n, f.target = some n →
        (s.store.condition n ≠ .orphan → refused .notFound)
        ∧ (s.store.condition n = .orphan →
          ((∃ e b, s.busyEngine e = some b ∧ b.work.row = some n) → refused .meterBusy)
          ∧ (¬ (∃ e b, s.busyEngine e = some b ∧ b.work.row = some n) → exec (.recordWriteDone d) s = .next ({ s with
              memory := s.memory.writeRecord n (overRow n)
              store := (((counted n).setCondition n .record).indexMeter f.image.meter n).unlistOrphan n
              }.finishOp.completed lane h overlap .done (.rowAndSequence n (overRow n).sequence)))))
      ∧ (f.target = none →
        (s.takenRow = none → refused .tableFull)
        ∧ ∀ n, s.takenRow = some n → exec (.recordWriteDone d) s = .next ({ s with
            memory := s.memory.writeRecord n image
            store := (s.store.setCondition n .record).indexMeter f.image.meter n
            }.finishOp.completed lane h overlap .done (.rowAndSequence n image.sequence))))

/-! ## Tariffs and the purchase calculation -/

/-- R33 to R36. SET_TARIFF is refused BAD_FIELD with the number of the class that failed, 0 for the bank as a whole (a
malformed body too, log entry 18), or its bank is placed for the tariff row that does not give the active bank, row 0 when
neither does; a bank that passes lies later than the current month and defines a class, and every class is in R30's ranges.
CLEAR_PENDING_TARIFF places the clearing of the row that gives the pending bank, or says that none was cleared. Both look at the
banks after every month advance handed to the unit before them (log entry 21). READ_TARIFF reports from the unit's own copies. -/
def Obligations.TariffRequestsAnswer : Prop :=
  (∀ (tag : Tag) (body : List Byte) (s : State), s.TakesSupervisor →
    let reply := fun k code b => s.replied k 0 tag { s.lane 0 with idle := 0 } code b
    let t := s.after (List.replicate s.tariff.advances.length .monthAdvance)
    t = { s with tariff := t.tariff } ∧ t.tariff.advances = []
    ∧ exec (.setTariff 0 tag body) s = .next (match checkTariff s.authority.month body with
      | .error n => reply .setTariff .badField (.failingClass n)
      | .ok bank => (t.working .setTariff 0 tag).place
          (.setTariff (if (t.tariff.active.map (·.1)) = some 0 then 1 else 0) bank))
    ∧ exec (.clearPendingTariff 0 tag []) s = .next (match t.tariff.pending with
      | none => t.replied .clearPendingTariff 0 tag { s.lane 0 with idle := 0 } .done (.bankCleared false)
      | some p => (t.working .clearPendingTariff 0 tag).place (.clearTariff p.1))
    ∧ exec (.readTariff 0 tag body) s = .next (match decodeReadTariff body with
      | none => reply .readTariff .badField .empty
      | some (pendingBank, k) => reply .readTariff .done (.tariff
          { activeMonth := s.tariff.active.map (·.2.effective)
            pendingMonth := s.tariff.pending.map (·.2.effective)
            tariffClass := (if pendingBank then s.tariff.pending else s.tariff.active).bind fun p => p.2.cls k })))
  ∧ ∀ (month : Nat) (body : List Byte) (bank : Bank), checkTariff month body = .ok bank →
    month < bank.effective ∧ bank.effective ≤ 65535 ∧ (∃ i : Fin 15, bank.classes[i] ≠ none)
      ∧ ∀ (i : Fin 15) (c : TariffClass), bank.classes[i] = some c →
        1 ≤ c.tenderMin ∧ c.tenderMin ≤ c.tenderMax ∧ c.tenderMax ≤ 9999999 ∧ c.charge ≤ 99999 ∧ c.allowance ≤ 1000
          ∧ c.bounded.length ≤ 3 ∧ 1 ≤ c.lastPrice ∧ c.lastPrice ≤ 99999
          ∧ (∀ b ∈ c.bounded, 1 ≤ b.price ∧ b.price ≤ 99999 ∧ 1 ≤ b.threshold ∧ b.threshold ≤ 9999999)
          ∧ (c.bounded.map (·.threshold)).Pairwise (· < ·)

/-- R34, R35 and R37: as the row write completes the pending bank becomes LOADED with the new bank, or EMPTY. A month advance
moves the pending bank into the active bank when the new month has reached its effective month, and writes no row; the
advances are taken in the order of the closes (log entry 21). R32: the rows give, at the new month, the banks that the unit
holds after the advance, unless both rows lie later than the month before, which no two SET_TARIFFs leave. -/
def Obligations.TariffBanksChange : Prop :=
  (∀ (row : Fin 2) (bank : Bank) (lane : LaneId) (h : Header) (overlap : Bool) (s : State),
    s.exchange = .working lane h overlap →
    (s.current = some (.setTariff row bank) → exec .setTariffWriteDone s = .next ({ s with
      memory := { s.memory with tariffs := s.memory.tariffs.set row ⟨some bank, {}⟩ }
      tariff := { s.tariff with pending := some (row, bank) } }.finishOp.completed lane h overlap .done .empty))
    ∧ (s.current = some (.clearTariff row) → exec .clearTariffWriteDone s = .next ({ s with
      memory := { s.memory with tariffs := s.memory.tariffs.set row ⟨none, {}⟩ }
      tariff := { s.tariff with pending := none } }.finishOp.completed lane h overlap .done (.bankCleared true))))
  ∧ (∀ s : State, (s.tariff.advances = [] → exec .monthAdvance s = .next s)
    ∧ ∀ month rest, s.tariff.advances = month :: rest →
      ((∃ p, s.tariff.pending = some p ∧ p.2.effective ≤ month) →
        exec .monthAdvance s = .next { s with tariff := ⟨s.tariff.pending, none, rest⟩ })
      ∧ ((∀ p, s.tariff.pending = some p → month < p.2.effective) →
        exec .monthAdvance s = .next { s with tariff := ⟨s.tariff.active, s.tariff.pending, rest⟩ }))
  ∧ ∀ (rows : Vector (Row (Option Bank)) 2) (month : Nat),
    (∀ p q, rows[0].content = some p → rows[1].content = some q → p.effective ≤ month ∨ q.effective ≤ month) →
    startupTariff rows (month + 1) = (startupTariff rows month).advance (month + 1)

/-- R49: in every purchase that the calculation completes, the tender and the carry brought in are accounted for exactly, in
millicents, whatever the class: what is recovered, what is collected, what the energy costs and the carry left. A zero tender
moves no money and leaves the carry. The commit brings the tender to the authority unit whole, and the result and the day
tally report the split. -/
def Obligations.PurchaseConservesMoney : Prop :=
  ∀ (c : TariffClass) (r : MeterRecord) (tender : Nat) (v : Calculation), r.recoveryRate ≤ 50 →
    calculate c r tender = .ok v →
    tender * 1000 + r.carry = v.recovered * 1000 + v.collected * 1000 + v.energyCost + v.carry
      ∧ (tender = 0 → v.recovered = 0 ∧ v.collected = 0 ∧ v.energyCost = 0 ∧ v.carry = r.carry)
      ∧ ∀ (w : WorkingValues) (m : MeterNumber) (n : Nat) (count : BitVec 32) (k : Marker) (o : DoneOutcome),
        w.calculation = some v → k = w.marker (.purchase m tender) r n count → o = w.outcome tender →
        k.tender = tender ∧ k.increments.money = tender ∧ k.increments.arrears = v.recovered
          ∧ k.increments.charge = v.collected ∧ k.increments.energyCost = v.energyCost ∧ k.image.carry = v.carry
          ∧ o.recovered = v.recovered ∧ o.collected = v.collected ∧ o.energyCost = v.energyCost ∧ o.carry = v.carry

/-- R44 and R45: a purchase buys each tenth at the price of the block that its month-to-date energy lies in, buys as many as
the money reaches for, reports the block that the next tenth lies in, and leaves a carry below that block's price. -/
def Obligations.EveryTenthIsBoughtAtItsBlocksPrice : Prop :=
  ∀ (c : TariffClass) (r : MeterRecord) (tender : Nat) (v : Calculation), 0 < tender →
    (c.bounded.map (·.threshold)).Pairwise (· < ·) → (∀ b ∈ c.bounded, 0 < b.price) → 0 < c.lastPrice →
    calculate c r tender = .ok v →
    let price := fun energy => ((c.bounded.find? fun b => energy < b.threshold).map (·.price)).getD c.lastPrice
    v.energyCost = ((List.range v.bought).map fun i => price (r.monthEnergy + i)).sum
      ∧ v.carry < price (r.monthEnergy + v.bought)
      ∧ v.monthEnergy = r.monthEnergy + v.bought
      ∧ v.blockReached = (c.bounded.takeWhile fun b => b.threshold ≤ v.monthEnergy).length + 1

/-- The stages of the calculation. R40: a tender above 0 below the minimum is LIMIT_LOW, above the maximum LIMIT_HIGH. R48: a
tender of 0 is NOTHING_DUE with neither an allowance nor a key change due, and else changes nothing but the allowance. R41,
R42, R46, R47: for any other tender what is recovered, what is collected, the caps and the allowance are the rules'. The caps
refuse AMOUNT_OVERFLOW exactly when the money reaches for a number of tenths beyond one of them, each tenth at the price of
the block it lies in (R44), for every class that R30 admits. -/
def Obligations.CalculationFollowsItsStages : Prop :=
  ∀ (c : TariffClass) (r : MeterRecord) (tender : Nat),
    let due := if 0 < c.allowance ∧ r.allowanceIssued = false then some c.allowance else none
    (0 < tender ∧ tender < c.tenderMin → calculate c r tender = .error .limitLow)
    ∧ (0 < tender ∧ c.tenderMin ≤ tender ∧ c.tenderMax < tender → calculate c r tender = .error .limitHigh)
    ∧ (due = none ∧ r.pendingGeneration = none → calculate c r 0 = .error .nothingDue)
    ∧ (due ≠ none ∨ r.pendingGeneration ≠ none → calculate c r 0 = .ok
        { recovered := 0, arrears := r.arrears, arrearsCleared := false, collected := 0, chargePaid := r.chargePaid
          bought := 0, monthEnergy := r.monthEnergy
          blockReached := (c.bounded.takeWhile fun b => b.threshold ≤ r.monthEnergy).length + 1
          energyCost := 0, carry := r.carry, allowance := due, allowanceIssued := r.allowanceIssued || due.isSome })
    ∧ (0 < tender → c.tenderMin ≤ tender → tender ≤ c.tenderMax →
      let recovered := min r.arrears (tender * r.recoveryRate / 100)
      let collected := min (c.charge - r.chargePaid) (tender - recovered)
      (calculate c r tender = .error .amountOverflow
        ∨ ∃ v, calculate c r tender = .ok v ∧ v.recovered = recovered ∧ v.arrears = r.arrears - recovered
          ∧ (v.arrearsCleared = true ↔ 0 < r.arrears ∧ v.arrears = 0) ∧ v.collected = collected
          ∧ v.chargePaid = r.chargePaid + collected ∧ v.bought ≤ 999999 ∧ v.monthEnergy ≤ 9999999
          ∧ v.allowance = due ∧ v.allowanceIssued = (r.allowanceIssued || due.isSome))
      ∧ (c.bounded = [] → let money := (tender - recovered - collected) * 1000 + r.carry
        (calculate c r tender = .error .amountOverflow
          ↔ 999999 < money / c.lastPrice ∨ 9999999 < r.monthEnergy + money / c.lastPrice)
        ∧ ∀ v, calculate c r tender = .ok v → v.bought = money / c.lastPrice ∧ v.carry = money % c.lastPrice)
      ∧ ((c.bounded.map (·.threshold)).Pairwise (· < ·) → (∀ b ∈ c.bounded, 0 < b.price) → 0 < c.lastPrice →
        let price := fun energy => ((c.bounded.find? fun b => energy < b.threshold).map (·.price)).getD c.lastPrice
        (calculate c r tender = .error .amountOverflow
          ↔ ∃ n, ((List.range n).map fun i => price (r.monthEnergy + i)).sum ≤ (tender - recovered - collected) * 1000 + r.carry
            ∧ (999999 < n ∨ 9999999 < r.monthEnergy + n))))

/-! ## Tokens, keys and the cipher -/

/-- R55 to R58: a group holds, in order, the key change pair when a generation is pending, the allowance, and the credit or the
service token; it is numbered upward from the record's sequence without gaps, and the pair is under the old generation, every
other token under the new. KEY_CHANGE_B alone carries a generation to confirm, the pending one (R59, R64). -/
def Obligations.GroupsAreNumberedInOrder : Prop :=
  ∀ (r : MeterRecord) (v : Calculation) (kind : TokenKind) (amount : Nat) (group : List (TokenKind × Nat)),
    let pair := if r.pendingGeneration = none then [] else [TokenKind.keyChangeA, TokenKind.keyChangeB]
    let numbered := numberGroup r r.sequence group
    (purchaseGroup r v).map (·.1) = pair ++ (if v.allowance = none then [] else [.allowance])
        ++ (if v.bought = 0 then [] else [.credit])
      ∧ (serviceGroup r kind amount).map (·.1) = pair ++ [kind] ∧ (kind, amount) ∈ serviceGroup r kind amount
      ∧ (∀ a, v.allowance = some a → (.allowance, a) ∈ purchaseGroup r v)
      ∧ (0 < v.bought → (.credit, v.bought) ∈ purchaseGroup r v)
      ∧ (∀ h, r.pendingGeneration = some h → (.keyChangeA, h) ∈ purchaseGroup r v ∧ (.keyChangeA, h) ∈ serviceGroup r kind amount)
      ∧ numbered.map (fun p => (p.kind, p.amount)) = group
      ∧ numbered.map (·.sequence) = List.range' (r.sequence + 1) group.length
      ∧ ∀ p ∈ numbered,
          p.generation = (if p.kind = .keyChangeA ∨ p.kind = .keyChangeB then r.keyGeneration
            else r.pendingGeneration.getD r.keyGeneration)
          ∧ p.confirms = if p.kind = .keyChangeB then r.pendingGeneration else none

/-- R61 and R62: a token's value is the permutation, under the meter key of its generation, of its 79-bit clear content of kind,
sequence, amount and check value; so two tokens of one meter under one generation with two sequence numbers never have the
same digits. The cipher's internals are uninterpreted constants (log entry 8). -/
def Obligations.TokensOfOneMeterAreDistinct : Prop :=
  ∀ (slots : Vector KeySlot 4) (m : MeterNumber) (p q : PlannedToken) (t u : Token), computeToken slots m p = some t →
    computeToken slots m q = some u → p.generation = q.generation → p.sequence ≤ 99999999 → q.sequence ≤ 99999999 →
    p.sequence ≠ q.sequence → tokenDigits t.value ≠ tokenDigits u.value

/-- R59, R61 to R64 and R118: a token computation completes under the keys of the slots, the cipher takes its next request, and
the engine holds the token with its five parts and goes on. The amount of KEY_CHANGE_B is the confirmation value of the new
generation. -/
def Obligations.TokenComputationsComplete : Prop :=
  ∀ (e : EngineId) (m : MeterNumber) (p : PlannedToken) (rest : List PlannedToken) (b : BusyEngine) (i : Item)
    (r : MeterRecord) (n amount : Nat) (key : Config.OfficeKey) (s : State),
    s.cipher.busy = some (.token e m p) → s.busyEngine e = some b → b.items[b.item]? = some i → b.work.planned = p :: rest →
    b.work.record = some r → b.work.row = some n → officeKeyOf s.slots p.generation = some key →
    (p.confirms = none ∧ amount = p.amount ∨ ∃ h k, p.confirms = some h ∧ officeKeyOf s.slots h = some k
      ∧ amount = (Config.confirmation (Config.meterKey k m) m).toNat) →
    let clear : BitVec 79 := BitVec.ofNat 3 (tokenKindNumber p.kind) ++ BitVec.ofNat 27 p.sequence ++ BitVec.ofNat 20 amount
      ++ Config.checkValue (Config.meterKey key m) (BitVec.ofNat 3 (tokenKindNumber p.kind)) (BitVec.ofNat 27 p.sequence)
        (BitVec.ofNat 20 amount)
    let token : Token := ⟨p.kind, p.sequence, p.generation, amount, Config.permutation (Config.meterKey key m) clear⟩
    exec .tokenComputed s = .next ({ s with cipher := s.cipher.complete }.wentOn e
      { b with work := { b.work with planned := rest, tokens := b.work.tokens ++ [token] } } i r n)

/-- R72: a request that finds the cipher FREE is granted, one that finds it BUSY joins the end of the list, and a completion
grants the first on the list. An engine that is granted becomes the last served, and a verification leaves that as it was.
Tokens of both engines that arrive together go to the engine that was not served last, with engine A first after a reset, and
a verification that arrives with tokens of one or both engines comes behind them. -/
def Obligations.CipherServesInOrderOfArrival : Prop :=
  State.reset.cipher = ⟨none, [], .b⟩ ∧ ∀ (c : Cipher) (r : CipherRequest),
    (c.busy = none → (c.request r).busy = some r ∧ (c.request r).waiting = c.waiting)
    ∧ (c.busy ≠ none → c.request r = { c with waiting := c.waiting ++ [r] })
    ∧ (c.waiting = [] → c.complete = { c with busy := none })
    ∧ (∀ rest, c.waiting = r :: rest → c.complete = ⟨some r, rest, r.engine.getD c.lastServed⟩)
    ∧ (∀ e m p, r = .token e m p → c.busy = none → (c.request r).lastServed = e)
    ∧ (r.engine = none → c.busy = none → (c.request r).lastServed = c.lastServed)
    ∧ ∀ m n p q, c.busy = none → c.waiting = [] →
      (c.lastServed = .b → c.arrive [.token .b n q, .token .a m p] = ⟨some (.token .a m p), [.token .b n q], .a⟩)
      ∧ (c.lastServed = .a → c.arrive [.token .a m p, .token .b n q] = ⟨some (.token .b n q), [.token .a m p], .b⟩)
      ∧ (∀ e, r.engine = none → c.arrive [r, .token e m p] = ⟨some (.token e m p), [r], e⟩)
      ∧ ∀ rs : List CipherRequest, r.engine = none → rs.Perm [r, .token .a m p, .token .b n q] →
        (c.lastServed = .b → c.arrive rs = ⟨some (.token .a m p), [.token .b n q, r], .a⟩)
        ∧ (c.lastServed = .a → c.arrive rs = ⟨some (.token .b n q), [.token .a m p, r], .b⟩)

/-- R68, R70 and R71 on receipt: a LOAD_KEY that is well-formed has its verification reach the cipher. DROP_KEY of an EMPTY slot
is DONE at once, of a LOADED slot in use KEY_IN_USE, of any other LOADED slot CHANGING with its row write placed. READ_KEYS
gives each slot's generation and in-use count, never a key. -/
def Obligations.KeyRequestsAnswer : Prop :=
  ∀ (tag : Tag) (body : List Byte) (b : Byte) (s : State), s.TakesSupervisor →
    let reply := fun k code x => s.replied k 0 tag { s.lane 0 with idle := 0 } code x
    exec (.loadKey 0 tag body) s = .next (match decodeLoadKey body with
      | none => reply .loadKey .badField .empty
      | some f => { s.working .loadKey 0 tag with cipher := s.cipher.request (.loadKey f) })
    ∧ (4 ≤ b.toNat → exec (.dropKey 0 tag [b]) s = .next (reply .dropKey .badField .empty))
    ∧ (∀ slot : SlotId, b.toNat = slot.val →
      (s.slots[slot].state = .empty → exec (.dropKey 0 tag [b]) s = .next (reply .dropKey .done (.keyDropped none)))
      ∧ ∀ g key, s.slots[slot].state = .loaded g key → exec (.dropKey 0 tag [b]) s = .next (
        if s.slots[slot].inUse ≠ 0 then reply .dropKey .keyInUse .empty
        else { s.working .dropKey 0 tag with
          slots := s.slots.set slot { s.slots[slot] with state := .changing } }.place (.dropKey slot g)))
    ∧ exec (.readKeys 0 tag []) s
      = .next (reply .readKeys .done (.keys (s.slots.toList.map fun k => (k.generation, k.inUse))))

/-- R68 to R70: the verification of a LOAD_KEY completes; a wrong authentication is BAD_AUTH, a generation loaded elsewhere
DUPLICATE_KEY, a slot in use KEY_IN_USE; else the slot becomes CHANGING and its row write is placed, and when that completes
the slot is LOADED. A DROP_KEY's write leaves it EMPTY. The unwrapping and the authentication are uninterpreted constants (log
entries 8 and 24). -/
def Obligations.KeyChangesComplete : Prop :=
  ∀ (lane : LaneId) (h : Header) (overlap : Bool) (s : State), s.exchange = .working lane h overlap →
    (∀ f t, s.cipher.busy = some (.loadKey f) → t = { s with cipher := s.cipher.complete } →
      exec .loadKeyVerified s = .next (
        if f.authentication ≠ Config.authentication s.grantKey (natToBytes 4 s.settings.officeId
            ++ natToBytes 1 f.generation ++ natToBytes 32 f.wrapped.toNat) then t.completed lane h overlap .badAuth .empty
        else if ∃ i : SlotId, i ≠ f.slot ∧ s.slots[i].generation = some f.generation then
          t.completed lane h overlap .duplicateKey .empty
        else if s.slots[f.slot].inUse ≠ 0 then t.completed lane h overlap .keyInUse .empty
        else { t with slots := s.slots.set f.slot { s.slots[f.slot] with state := .changing } }.place
          (.loadKey f.slot ⟨f.generation, Config.unwrap s.grantKey f.wrapped⟩)))
    ∧ (∀ slot k, s.current = some (.loadKey slot k) → exec .keyWriteDone s = .next ({ s with
        memory := { s.memory with keys := s.memory.keys.set slot ⟨some k, {}⟩ }
        slots := s.slots.set slot { s.slots[slot] with state := .loaded k.generation k.key } }.finishOp.completed lane h overlap
          .done (.keyLoaded slot k.generation)))
    ∧ ∀ slot g, s.current = some (.dropKey slot g) → exec .dropKeyWriteDone s = .next ({ s with
        memory := { s.memory with keys := s.memory.keys.set slot ⟨none, {}⟩ }
        slots := s.slots.set slot { s.slots[slot] with state := .empty } }.finishOp.completed lane h overlap .done
          (.keyDropped (some g)))

/-! ## The vend engines -/

/-- R105 to R108. The dispatcher chooses for an engine a lane that is eligible for it, none of a higher priority being so, and
among lanes of its priority the first counted upward from the one after the last served. A DISPATCH makes engine A's choice,
or else engine B's: the head of the queue goes to the in-flight list, the lane is the last served of its priority, and the
engine claims the first item's meter: a claim on a free meter for which a claim already waits joins behind it (log entry 11).
With no choice nothing changes. -/
def Obligations.DispatchServesThePriorities : Prop :=
  ∀ s : State,
    let isEligible := fun (e : EngineId) (l : LaneId) => s.office = .ready ∧ s.engines.get e = .idle
      ∧ (s.lane l).state = .opened ∧ (s.lane l).queue ≠ []
      ∧ (s.lane l).inFlight.length + ((s.lane l).foreground.toList.length + (s.lane l).background.toList.length) < 2
      ∧ (s.supply = .mains → (if e = .a then (s.settingsOf l).maskA else (s.settingsOf l).maskB) = true)
      ∧ (s.supply = .battery → e = .a ∧ (s.settingsOf l).batteryService = true) ∧ s.supply ≠ .holding
    (∀ e, s.choose e = none → ∀ l, ¬ isEligible e l)
    ∧ (∀ e l, s.choose e = some l → isEligible e l ∧ ∀ k, isEligible e k →
      (s.settingsOf k).priority < (s.settingsOf l).priority
      ∨ (s.settingsOf k).priority = (s.settingsOf l).priority
        ∧ (l - (s.lastServed[(s.settingsOf l).priority] + 1)).val ≤ (k - (s.lastServed[(s.settingsOf l).priority] + 1)).val)
    ∧ (s.choose .a = none → s.choose .b = none → exec .dispatch s = .next s)
    ∧ ∀ e l r rest i more, (s.choose .a = some l ∧ e = .a ∨ s.choose .a = none ∧ s.choose .b = some l ∧ e = .b) →
      (s.lane l).queue = r :: rest → r.items = i :: more →
      exec .dispatch s = .next ({ s with
        lanes := s.lanes.set l { s.lane l with queue := rest, inFlight := (s.lane l).inFlight ++ [(r.tag, e)] }
        lastServed := s.lastServed.set (s.settingsOf l).priority l }.claimed e ⟨l, r.tag, r.items, 0, .claim, [], {}⟩ i.meter)

/-- R114 to R117, R131 and R133: the read of an item's record and the checks of stages 2 to 4, in their order. A check that
fails refuses the item with its code. An item that passes raises the in-use counts of its key slots, reserves its tender,
which sets AUTHORITY_LOW when available falls below the low mark, and goes on with its numbered group. The overdue flag is the
one that stands at the read: between a TICK and its minute step that is the model's order (log entry 3). The key check finds
the slots exactly when each generation that the record names is LOADED, and each slot's count rises by one (R66, R67). -/
def Obligations.ItemsPassOrAreRefused : Prop :=
  (∀ (e : EngineId) (m : MeterNumber) (d : Decay) (b : BusyEngine) (i : Item) (s : State), s.current = some (.itemRead e m) →
    s.busyEngine e = some b → b.items[b.item]? = some i →
    let refused := fun (t : State) code => exec (.itemReadDone d) s = .next (t.finishOp.refuseItem e b code)
    (s.store.rowOf m = none → refused s .noMeter)
    ∧ ∀ n, s.store.rowOf m = some n →
      (n ∈ s.store.damaged → refused s .damaged)
      ∧ (n ∉ s.store.damaged →
        let t := s.readRecordRow n d
        (s.reading n d = .noNumber → refused t .noMeter)
        ∧ (s.reading n d = .damaged → refused t .damaged)
        ∧ ∀ read r named, s.reading n d = .record read → r = read.rollover b.work.month → named = neededSlots s.slots r →
          let passes := fun (w : WorkingValues) =>
            let falls := s.settings.lowMark ≤ s.authority.available
              && s.authority.available - w.reserved < s.settings.lowMark
            exec (.itemReadDone d) s = .next ({ t.finishOp.raiseSlots w.slots with
              authority := { s.authority with reserved := s.authority.reserved + w.reserved }
              events := { t.events with authorityLow := t.events.authorityLow || falls }
              }.wentOn e { b with stage := .tokens, work := w } i r n)
          (read.status ≠ .active → refused t .meterState)
          ∧ (read.status = .active → s.authority.overdue = true → refused t .dayOverdue)
          ∧ (read.status = .active → s.authority.overdue = false →
            (∀ mm tender, i = .purchase mm tender → match s.tariff.snapshot r.tariffClass, named with
              | none, _ => refused t .classUndefined
              | some _, none => refused t .keyUnavailable
              | some c, some slots => match calculate c r tender with
                | .error code => refused t code
                | .ok v =>
                  let group := purchaseGroup r v
                  if group ≠ [] ∧ 99999999 < r.sequence + group.length then refused t .sequenceExhausted
                  else if s.authority.available < tender then refused t .noAuthority
                  else passes { b.work with
                    row := some n, record := some r, snapshot := some c, calculation := some v
                    planned := numberGroup r r.sequence group, reserved := tender, slots := slots })
            ∧ ∀ mm kind amount, i = .service mm kind amount → match named with
              | none => refused t .keyUnavailable
              | some slots =>
                let group := serviceGroup r kind amount
                if 99999999 < r.sequence + group.length then refused t .sequenceExhausted
                else passes { b.work with
                  row := some n, record := some r, planned := numberGroup r r.sequence group, slots := slots })))
  ∧ ∀ (slots : Vector KeySlot 4) (r : MeterRecord) (named : List SlotId) (s : State),
    let needed := r.keyGeneration :: r.pendingGeneration.toList
    (neededSlots slots r = none ↔ ∃ g ∈ needed, ∀ i : SlotId, slots[i].generation ≠ some g)
    ∧ (neededSlots slots r = some named → named.Nodup
      ∧ (∀ g ∈ needed, ∃ i ∈ named, slots[i].generation = some g)
      ∧ ∀ i ∈ named, ∃ g ∈ needed, slots[i].generation = some g)
    ∧ (named.Nodup → s.raiseSlots named = { s with slots := (s.raiseSlots named).slots }
      ∧ ∀ i : SlotId, (s.raiseSlots named).slots[i]
        = if i ∈ named then { s.slots[i] with inUse := s.slots[i].inUse + 1 } else s.slots[i])

/-- R87, R98, R100, R121: a refused item releases its meter, raises its lane's refused count and, for five codes, its discipline
count by 1; every later item is SKIPPED with PRIOR_REFUSAL, and the request ends with its result. -/
def Obligations.RefusedItemEndsItsRequest : Prop :=
  ∀ (e : EngineId) (b : BusyEngine) (code : RefusalCode) (s : State),
    let l := s.lane b.lane
    let told := { l with tally := { l.tally with refused := min 4294967295 (l.tally.refused + 1) } }
    let counted :=
      if code = .noMeter ∨ code = .meterState ∨ code = .limitLow ∨ code = .limitHigh ∨ code = .nothingDue then
        told.raiseCount (b.lane != 0) 1
      else told
    s.refuseItem e b code = { s with
      locks := { s.locks with engines := s.locks.engines.set e none }
      lanes := s.lanes.set b.lane counted
      events := { s.events with
        laneBarred := s.events.laneBarred || (l.state != LaneState.barred && counted.state == LaneState.barred) }
      }.ended e b.lane b.tag (b.outcomes ++ ItemOutcome.refused code
        :: List.replicate (b.items.length - b.item - 1) (ItemOutcome.skipped .priorRefusal))

/-- R158, R159 and R132: each write of a commit completes and the next is placed. The marker holds the item's new record and
increments and the count after the engine's (R115, R116, R135). The meter row takes the image, leaving the damaged set, or
becoming RECORD if it was an orphan whose meter is not indexed. The office row takes the row formed as its write was taken, and
the unit the spend, the increments and the count, with reserved falling in the same event. -/
def Obligations.CommitWritesInOrder : Prop :=
  ∀ (e : EngineId) (k : Marker) (s : State),
    (s.current = some (.commitMarker e k) → exec .commitMarkerWritten s = .next
      ({ s with memory := s.memory.writeCommit e (some k) }.finishOp.place (.commitMeter e k)))
    ∧ (s.current = some (.commitMeter e k) → exec .commitMeterRowWritten s = .next ({ s with
      memory := s.memory.writeRecord k.row k.image
      store :=
        if s.store.condition k.row = RowCondition.record then { s.store with damaged := s.store.damaged.filter (· ≠ k.row) }
        else if s.store.condition k.row = RowCondition.orphan ∧ s.store.rowOf k.image.meter = none then
          ((s.store.setCondition k.row .record).indexMeter k.image.meter k.row).unlistOrphan k.row
        else s.store }.finishOp.place (.office (.commit e k))))
    ∧ (∀ row b, s.store.inProgress = some ⟨.office (.commit e k), some row, none⟩ → s.busyEngine e = some b →
      exec .commitOfficeRowWritten s = .next ({ s with
        memory := s.memory.writeOffice row
        authority := { s.authority with
          spent := s.authority.spent + k.tender
          reserved := s.authority.reserved - k.tender
          tally := s.authority.tally.add k.increments
          commitCounts := s.authority.commitCounts.set e k.count }
        engines := s.engines.set e (.busy { b with work := { b.work with reserved := 0 } }) }.finishOp.place (.commitClear e)))
    ∧ ∀ (w : WorkingValues) (i : Item) (r : MeterRecord) (n : Nat) (count : BitVec 32) (image : MeterRecord),
      let marker := w.marker i r n count
      marker.row = n ∧ marker.tender = i.tender ∧ marker.count = count + 1
      ∧ (∀ v, w.calculation = some v → image = { r with
            arrears := v.arrears, chargePaid := v.chargePaid, monthEnergy := v.monthEnergy, carry := v.carry
            allowanceIssued := v.allowanceIssued } →
        (w.tokens = [] → r.pendingGeneration = none → marker.image = image)
        ∧ (∀ t, w.tokens.getLast? = some t → marker.image = { image with
            sequence := t.sequence, lastSale := some ⟨w.tokens, i.tender, v.bought⟩
            keyGeneration := r.pendingGeneration.getD r.keyGeneration, pendingGeneration := none })
        ∧ marker.increments = ⟨i.tender, v.recovered, v.collected, v.energyCost, v.bought, v.allowance.getD 0, 1, 0,
            w.tokens.length⟩)
      ∧ (w.calculation = none →
        (∀ t, w.tokens.getLast? = some t → marker.image = { r with
            sequence := t.sequence, lastSale := some ⟨w.tokens, i.tender, 0⟩
            keyGeneration := r.pendingGeneration.getD r.keyGeneration, pendingGeneration := none })
        ∧ marker.increments = { services := 1, tokens := w.tokens.length })

/-- R100, R120, R122 and R123: the fourth write clears the commit row, and the engine closes its item: it releases the meter,
lowers each count it raised by one (R66), and reports to the lane's tally, with one off the count for a tender above 0. Then it
claims the next item, behind a claim that already waits for a free meter (log entry 11), or with none left ends the request;
in HOLDING the later items are SKIPPED with SUPPLY and the request ends. -/
def Obligations.CommittedItemCloses : Prop :=
  (∀ (e : EngineId) (b : BusyEngine) (i : Item) (s t : State) (x : Lane), s.current = some (.commitClear e) →
    s.busyEngine e = some b → b.items[b.item]? = some i →
    (∀ m tender, i = .purchase m tender → x = { s.lane b.lane with
      count := (s.lane b.lane).count - (if 0 < tender then 1 else 0)
      tally := { (s.lane b.lane).tally with
        money := (s.lane b.lane).tally.money + tender
        purchases := min 4294967295 ((s.lane b.lane).tally.purchases + 1)
        tokens := min 4294967295 ((s.lane b.lane).tally.tokens + b.work.tokens.length) } }) →
    (∀ m kind amount, i = .service m kind amount → x = { s.lane b.lane with
      tally := { (s.lane b.lane).tally with
        tokens := min 4294967295 ((s.lane b.lane).tally.tokens + b.work.tokens.length) } }) →
    t = { { s with memory := s.memory.writeCommit e none }.finishOp.lowerSlots b.work.slots with
      locks := { s.locks with engines := s.locks.engines.set e none }
      lanes := s.lanes.set b.lane x } →
    let outcomes := b.outcomes ++ [.done (b.work.outcome i.tender)]
    (s.supply = .holding → exec .commitCleared s = .next (t.ended e b.lane b.tag
      (outcomes ++ List.replicate (b.items.length - b.item - 1) (.skipped .supply))))
    ∧ (s.supply ≠ .holding →
      (b.items[b.item + 1]? = none → exec .commitCleared s = .next (t.ended e b.lane b.tag outcomes))
      ∧ ∀ j, b.items[b.item + 1]? = some j →
        exec .commitCleared s = .next (t.claimed e { b with item := b.item + 1, outcomes := outcomes } j.meter))
    ∧ (∀ v, b.work.calculation = some v → b.work.outcome i.tender = ⟨b.work.tokens, i.tender, v.recovered, v.collected,
        v.energyCost, v.carry, v.bought, v.blockReached, v.arrears, v.arrearsCleared⟩))
  ∧ ∀ (named : List SlotId) (s : State), named.Nodup → s.lowerSlots named = { s with slots := (s.lowerSlots named).slots }
    ∧ ∀ i : SlotId, (s.lowerSlots named).slots[i]
      = if i ∈ named then { s.slots[i] with inUse := s.slots[i].inUse - 1 } else s.slots[i]

/-! ## Authority and the trading calendar -/

/-- R129 and R130: GRANT's checks in their order: the fields and the office id, the serial, then, as its verification
completes, the authentication and the top of granted. A factory office, whose id is 0, takes no grant (R182). A grant that
passes has the office row written, and as that completes
granted rises by the amount and the serial is the last; the reply gives the serial, granted and available. The authentication
is an uninterpreted constant (log entries 8 and 24). -/
def Obligations.GrantAnswers : Prop :=
  (∀ (tag : Tag) (body : List Byte) (s : State), s.TakesSupervisor →
    let refused := fun code => s.replied .grant 0 tag { s.lane 0 with idle := 0 } code .empty
    exec (.grant 0 tag body) s = .next (match decodeGrant body with
      | none => refused .badField
      | some f =>
        if f.officeId ≠ s.settings.officeId then refused .badField
        else if f.serial ≤ s.authority.lastSerial then refused .staleGrant
        else { s.working .grant 0 tag with cipher := s.cipher.request (.grant f) })
    ∧ (s.settings.officeId = 0 → exec (.grant 0 tag body) s = .next (refused .badField)))
  ∧ (∀ (f : GrantFields) (lane : LaneId) (h : Header) (overlap : Bool) (s t : State), s.cipher.busy = some (.grant f) →
    s.exchange = .working lane h overlap → t = { s with cipher := s.cipher.complete } →
    exec .grantVerified s = .next (
      if f.authentication ≠ Config.authentication s.grantKey f.message then t.completed lane h overlap .badAuth .empty
      else if 1000000000000 < s.authority.granted + f.amount then t.completed lane h overlap .badField .empty
      else t.place (.office (.grant f.amount f.serial))))
  ∧ ∀ (amount serial : Nat) (row : OfficeRow) (lane : LaneId) (h : Header) (overlap : Bool) (s : State),
    s.store.inProgress = some ⟨.office (.grant amount serial), some row, none⟩ → s.exchange = .working lane h overlap →
    exec .grantWriteDone s = .next ({ s with
      memory := s.memory.writeOffice row
      authority := { s.authority with granted := s.authority.granted + amount, lastSerial := serial }
      }.finishOp.completed lane h overlap .done
        (.granted serial (s.authority.granted + amount)
          (s.authority.granted + amount - s.authority.spent - s.authority.reserved)))

/-- R136 and R139: CLOSE_DAY on day 65,535 is DAY_LIMIT, CLOSE_MONTH in month 65,535 MONTH_LIMIT; else the office row is written.
As the write of a day close completes, with no minute left due (log entry 3), the day rises by 1, the tally, the day age and
the prescaler are 0 and the overdue flag is clear, and the reply gives the day closed with its tally. As that of a month
close completes the month rises by 1 and the tariff unit is handed the advance. R141: the completion of a day-age write
changes no value. -/
def Obligations.PeriodsClose : Prop :=
  (∀ (tag : Tag) (s : State), s.TakesSupervisor →
    exec (.closeDay 0 tag []) s = .next (
      if s.authority.day = 65535 then s.replied .closeDay 0 tag { s.lane 0 with idle := 0 } .dayLimit .empty
      else (s.working .closeDay 0 tag).place (.office .closeDay))
    ∧ exec (.closeMonth 0 tag []) s = .next (
      if s.authority.month = 65535 then s.replied .closeMonth 0 tag { s.lane 0 with idle := 0 } .monthLimit .empty
      else (s.working .closeMonth 0 tag).place (.office .closeMonth)))
  ∧ (∀ (row : OfficeRow) (lane : LaneId) (h : Header) (overlap : Bool) (s : State), s.exchange = .working lane h overlap →
    (s.store.inProgress = some ⟨.office .closeDay, some row, none⟩ → s.authority.prescaler < 60 →
      exec .closeDayWriteDone s = .next ({ s with
        memory := s.memory.writeOffice row
        authority := { s.authority with
          day := s.authority.day + 1, tally := {}, overdue := false, dayAge := 0, prescaler := 0 }
        }.finishOp.completed lane h overlap .done (.dayClosed s.authority.day s.authority.tally)))
    ∧ (s.store.inProgress = some ⟨.office .closeMonth, some row, none⟩ → exec .closeMonthWriteDone s = .next ({ s with
        memory := s.memory.writeOffice row
        authority := { s.authority with month := s.authority.month + 1 }
        tariff := { s.tariff with advances := s.tariff.advances ++ [s.authority.month + 1] }
        }.finishOp.completed lane h overlap .done (.month (s.authority.month + 1)))))
  ∧ ∀ (row : OfficeRow) (s : State), s.store.inProgress = some ⟨.office .dayAge, some row, none⟩ →
    exec .dayAgeWriteDone s = .next { s with memory := s.memory.writeOffice row }.finishOp

/-! ## Office-wide requests -/

/-- R182, R183 and R154. SET_OFFICE is placed, but for an office id that would change after a grant; as its write completes the
settings take effect, a changed day limit that the day age has reached sets the overdue flag (R142) and a low mark raised
above available sets AUTHORITY_LOW (R133). SET_MEMORY_ALARM is placed with its exponent held at 23; as its write completes the
exponent and the error count take their values. That the store takes its next operation before the overdue flag is set is
log entry 43. -/
def Obligations.OfficeSettingsTakeEffect : Prop :=
  (∀ (tag : Tag) (body : List Byte) (s : State), s.TakesSupervisor →
    exec (.setOffice 0 tag body) s = .next (match decodeSetOffice body with
      | none => s.replied .setOffice 0 tag { s.lane 0 with idle := 0 } .badField .empty
      | some st =>
        if 0 < s.authority.lastSerial ∧ st.officeId ≠ s.settings.officeId then
          s.replied .setOffice 0 tag { s.lane 0 with idle := 0 } .badField .empty
        else (s.working .setOffice 0 tag).place (.office (.setOffice st)))
    ∧ exec (.setMemoryAlarm 0 tag body) s = .next (match decodeSetMemoryAlarm body with
      | none => s.replied .setMemoryAlarm 0 tag { s.lane 0 with idle := 0 } .badField .empty
      | some (exponent, count) =>
        (s.working .setMemoryAlarm 0 tag).place (.office (.setAlarm (min exponent 23) count))))
  ∧ ∀ (row : OfficeRow) (lane : LaneId) (h : Header) (overlap : Bool) (s : State), s.exchange = .working lane h overlap →
    (∀ st t u, s.store.inProgress = some ⟨.office (.setOffice st), some row, none⟩ →
      t = { s with memory := s.memory.writeOffice row, settings := st }.finishOp →
      u = (if st.dayLimit ≠ s.settings.dayLimit ∧ s.authority.overdue = false ∧ st.dayLimit * 60 ≤ s.authority.dayAge then
          { t with
            authority := { s.authority with overdue := true }
            events := { s.events with dayOverdue := true } }.place (.office .dayAge)
        else t) →
      exec .setOfficeWriteDone s = .next ({ u with events := { u.events with authorityLow := u.events.authorityLow
          || (s.settings.lowMark ≤ s.authority.available && s.authority.available < st.lowMark) }
          }.completed lane h overlap .done (.settings st)))
    ∧ ∀ exponent count, s.store.inProgress = some ⟨.office (.setAlarm exponent count), some row, none⟩ →
      exec .memoryAlarmWriteDone s = .next ({ s with
        memory := s.memory.writeOffice row
        store := { s.store with alarmExponent := exponent, errorCount := count }
        }.finishOp.completed lane h overlap .done (.alarm exponent count))

/-- R180: CLEAR_EVENTS clears the flags it names and shows every flag and condition afterwards; a condition it names has no
effect. R177 and R181: READ_STATUS on lane 0 is answered in every office state and every state of lane 0; it reports what the
units hold and changes nothing but lane 0's idle seconds; by the model's choice the next row of the scan is the one whose read is
in progress (log entry 44) and the start-up step goes by its number (log entry 45). The supervisor code is in no byte of the reply. R179: ATTN is high exactly while an enabled flag
is set or an enabled condition is pending. -/
def Obligations.EventsAndStatusAnswer : Prop :=
  (∀ (tag : Tag) (body : List Byte) (s : State), s.TakesSupervisor →
    exec (.clearEvents 0 tag body) s = .next (match decodeClearEvents body with
      | none => s.replied .clearEvents 0 tag { s.lane 0 with idle := 0 } .badField .empty
      | some named =>
        let events : EventFlags := ⟨s.events.authorityLow && !named.authorityLow, s.events.laneBarred && !named.laneBarred,
          s.events.dayOverdue && !named.dayOverdue, s.events.rowDamaged && !named.rowDamaged,
          s.events.supplyChange && !named.supplyChange⟩
        { s with events := events }.replied .clearEvents 0 tag { s.lane 0 with idle := 0 } .done (.events events
          (s.lanes.toList.any fun l => l.foreground.isSome) (2 ^ s.store.alarmExponent ≤ s.store.errorCount))))
  ∧ (∀ (tag : Tag) (s : State), s.resetHeld = false → s.exchange = .idle → s.tickSettled = true →
    exec (.readStatus 0 tag []) s = .next (s.replied .readStatus 0 tag { s.lane 0 with idle := 0 } .done (.status
      { office := s.office
        startupStep := if s.office = .starting then s.current.bind RowOp.startupStep else none
        nextRow := if s.office = .starting then s.current.bind RowOp.scanRow else none
        fault := s.faultRecord, supply := s.supply, events := s.events
        resultWaiting := s.lanes.toList.any fun l => l.foreground.isSome
        memoryAlarm := 2 ^ s.store.alarmExponent ≤ s.store.errorCount
        available := s.authority.granted - s.authority.spent - s.authority.reserved, reserved := s.authority.reserved
        granted := s.authority.granted, spent := s.authority.spent, lastSerial := s.authority.lastSerial
        day := s.authority.day, month := s.authority.month, dayAge := s.authority.dayAge, overdue := s.authority.overdue
        engines := ⟨s.engines.a.report, s.engines.b.report⟩, errorCount := s.store.errorCount
        alarmExponent := s.store.alarmExponent, damagedRows := s.store.damaged.length, orphans := s.store.orphans
        overflow := s.store.overflow, passes := s.store.scrubber.passes, settings := s.settings })))
  ∧ (∀ s : State, s.attn = true ↔ (s.settings.mask.authorityLow = true ∧ s.events.authorityLow = true)
    ∨ (s.settings.mask.laneBarred = true ∧ s.events.laneBarred = true)
    ∨ (s.settings.mask.dayOverdue = true ∧ s.events.dayOverdue = true)
    ∨ (s.settings.mask.rowDamaged = true ∧ s.events.rowDamaged = true)
    ∨ (s.settings.mask.supplyChange = true ∧ s.events.supplyChange = true)
    ∨ (s.settings.mask.resultWaiting = true ∧ ∃ l, (s.lane l).foreground ≠ none)
    ∨ (s.settings.mask.memoryAlarm = true ∧ 2 ^ s.store.alarmExponent ≤ s.store.errorCount))
  ∧ ∀ (r : StatusReport) (code : Nat),
    bodyBytes (.status { r with settings := { r.settings with supervisorCode := code } }) = bodyBytes (.status r)

/-! ## The scrubber, start-up and the scan -/

/-- R155 to R157 and R111. While the office is READY and the supply MAINS, one step at a time: a row in condition RECORD outside
the damaged set is read under a claim on its meter, passed over when an engine names the meter; any other meter row is passed
over; each row of the office-row phase is read with no claim. The read's findings take effect and the position moves on. Two
points are the model's: the scrubber is granted a meter with no holder for which an engine claim waits (log entry 11), and the
pass is counted also when the read of the last commit row enters FAULT (log entry 36). -/
def Obligations.ScrubberVisitsEveryRow : Prop :=
  (∀ s : State, (s.office ≠ .ready ∨ s.supply ≠ .mains ∨ s.store.scrubber.reading = true → exec .scrubberStep s = .next s)
    ∧ (s.office = .ready → s.supply = .mains → s.store.scrubber.reading = false →
      let reads := fun (t : State) id => exec .scrubberStep s = .next
        ({ t with store := { s.store with scrubber := { s.store.scrubber with reading := true } } }.place (.scrub id))
      (∀ n, s.store.scrubber.position = .meter n →
        (s.store.condition n ≠ .record ∨ n ∈ s.store.damaged → exec .scrubberStep s = .next s.advanceScrubber)
        ∧ ∀ m, s.store.condition n = .record → n ∉ s.store.damaged → s.store.meterAt n = some m →
          (s.locks.engines.a = some m ∨ s.locks.engines.b = some m → exec .scrubberStep s = .next s.advanceScrubber)
          ∧ (s.locks.engines.a ≠ some m → s.locks.engines.b ≠ some m →
            reads { s with locks := { s.locks with scrubber := some m } } (.meter n)))
      ∧ ∀ id, s.store.scrubber.position = id → (∀ n, id ≠ .meter n) → reads s id))
  ∧ (∀ (n : Nat) (d : Decay) (s : State), s.current = some (.scrub (.meter n)) → s.store.condition n = .record →
    exec (.scrubberReadDone d) s = .next
      ({ s.readRecordRow n d with locks := { s.locks with scrubber := none } }.finishOp.advanceScrubber))
  ∧ (∀ (id : RowId) (d : Decay) (s t : State) (w : Rot), s.current = some (.scrub id) → (∀ n, id ≠ .meter n) →
    w = (s.memory.rot id).after d →
    t = { s with
      store := { s.store with errorCount := min 16777215 (s.store.errorCount + w.flipped) }
      memory := s.memory.setRot id (if 0 < w.lost then w else {}) } →
    exec (.scrubberReadDone d) s = .next
      ((if 0 < w.lost then { t with office := .fault, faultRecord := some ⟨id, true⟩ } else t).finishOp.advanceScrubber))
  ∧ (∀ n, n < 16383 → nextPosition (.meter n) = (.meter (n + 1), false))
  ∧ ([.meter 16383, .office, .tariff 0, .tariff 1, .key 0, .key 1, .key 2, .key 3, .laneSettings, .commit .a, .commit .b].map
      nextPosition = [(.office, false), (.tariff 0, false), (.tariff 1, false), (.key 0, false), (.key 1, false),
        (.key 2, false), (.key 3, false), (.laneSettings, false), (.commit .a, false), (.commit .b, false), (.meter 0, true)])
  ∧ ∀ s : State, s.advanceScrubber = { s with store := { s.store with scrubber :=
      ⟨(nextPosition s.store.scrubber.position).1,
        if (nextPosition s.store.scrubber.position).2 then min 4294967295 (s.store.scrubber.passes + 1)
        else s.store.scrubber.passes, false⟩ } }

/-- R160, R167 and R168. Start-up reads the eight office rows in turn, then the units take their values; then each commit row,
engine A's first. A row with an uncorrectable word puts the office in FAULT and start-up stops (R152). A marker found has its
meter row written, the office row written if the counts differ, and the commit row cleared, before the next. -/
def Obligations.StartUpReadsAndRollsForward : Prop :=
  (∀ (id : RowId) (d : Decay) (s t : State) (w : Rot), w = (s.memory.rot id).after d →
    t = { s with
      store := { s.store with errorCount := min 16777215 (s.store.errorCount + w.flipped) }
      memory := s.memory.setRot id (if 0 < w.lost then w else {}) } →
    (s.current = some (.startOffice id) →
      (0 < w.lost → exec (.startupOfficeRowRead d) s
        = .next ({ t with office := .fault, faultRecord := some ⟨id, false⟩ }.finishOp))
      ∧ (w.lost = 0 →
        (id ≠ .laneSettings → exec (.startupOfficeRowRead d) s = .next (t.finishOp.place (.startOffice (nextPosition id).1)))
        ∧ (id = .laneSettings → ∀ row, s.memory.office.content = row →
          exec (.startupOfficeRowRead d) s = .next ({ t.finishOp with
            authority := ⟨row.granted, row.spent, 0, row.lastSerial, row.day, row.month, row.tally, row.overdue,
              row.commitCounts, row.dayAgeHours * 60, 0⟩
            settings := row.settings
            tariff := startupTariff s.memory.tariffs row.month
            slots := s.memory.keys.map fun (k : Row (Option KeyContent)) =>
              match k.content with
              | some c => KeySlot.mk (.loaded c.generation c.key) 0
              | none => KeySlot.mk .empty 0
            laneSettings := s.memory.lanes.content
            store := { t.finishOp.store with alarmExponent := row.alarmExponent } }.place (.startCommit .a)))))
    ∧ ∀ e, id = .commit e → s.current = some (.startCommit e) →
      (0 < w.lost → exec (.commitRowRead d) s
        = .next ({ t with office := .fault, faultRecord := some ⟨id, false⟩ }.finishOp))
      ∧ (w.lost = 0 → exec (.commitRowRead d) s = .next (t.finishOp.place (match (s.memory.commits.get e).content with
        | some m => .rollMeter e m
        | none => if e = EngineId.a then .startCommit .b else .scan 0))))
  ∧ ∀ (e : EngineId) (m : Marker) (s : State),
    (s.current = some (.rollMeter e m) → exec .rollForwardWriteDone s = .next
      ({ s with memory := s.memory.writeRecord m.row m.image }.finishOp.place
        (if s.memory.office.content.commitCounts.get e ≠ m.count then .office (.rollForward e m) else .rollClear e)))
    ∧ (∀ row, s.store.inProgress = some ⟨.office (.rollForward e m), some row, none⟩ →
      exec .rollForwardWriteDone s = .next ({ s with
        memory := s.memory.writeOffice row
        authority := { s.authority with
          spent := s.authority.spent + m.tender
          tally := s.authority.tally.add m.increments
          commitCounts := s.authority.commitCounts.set e m.count } }.finishOp.place (.rollClear e)))
    ∧ (s.current = some (.rollClear e) → exec .rollForwardWriteDone s = .next
      ({ s with memory := s.memory.writeCommit e none }.finishOp.place (if e = EngineId.a then .startCommit .b else .scan 0)))

/-- R169 to R171 and R144. The scan settles each meter row by its findings: an uncorrectable meter number makes an orphan, the
free mark a FREE row, a record a RECORD row that takes its meter's index entry. Of two rows with one meter number the later
keeps the entry only with a known sequence that is higher than the earlier's or where the earlier's is unknown; the loser is
an orphan. A new orphan joins the orphan list, or sets the overflow mark when 32 are listed, and sets ROW_DAMAGED; a record with
an uncorrectable word joins the damaged set and sets it too. Corrected words are counted, the row is sound afterwards unless a
word is lost, and no other row changes (R149). After the last row the office is READY, with DAY_OVERDUE and AUTHORITY_LOW set
as the day and available call for. -/
def Obligations.ScanSettlesEveryRow : Prop :=
  (∀ (n : Nat) (d : Decay) (s x : State) (w : MeterWords), w = (s.memory.meterRow n).words.after d →
    x = s.scanFindings n d →
    let lost := w.sequence = .uncorrectable ∨ 0 < w.body.lost
    let orphaned := fun j => x.store.condition j = .orphan ∧ x.events = { s.events with rowDamaged := true }
      ∧ x.store.orphans = (if j ∈ s.store.orphans ∨ 32 ≤ s.store.orphans.length then s.store.orphans else s.store.orphans ++ [j])
      ∧ (x.store.overflow = true ↔ s.store.overflow = true ∨ j ∉ s.store.orphans ∧ 32 ≤ s.store.orphans.length)
    x.store.errorCount = min 16777215 (s.store.errorCount + w.corrections)
    ∧ x.memory = { s.memory with meters := x.memory.meters }
    ∧ (∀ k, k ≠ n → x.memory.meterRow k = s.memory.meterRow k)
    ∧ x.memory.meterRow n
      = ⟨(s.memory.meterRow n).content, if w.number = .uncorrectable ∨ lost then w else {}⟩
    ∧ (w.number = .uncorrectable → orphaned n ∧ ∀ j, j ∈ x.store.damaged ↔ j ∈ s.store.damaged ∧ j ≠ n)
    ∧ (w.number ≠ .uncorrectable →
      ((s.memory.meterRow n).content = none → x.store.condition n = .free ∧ n ∈ x.store.freeList ∧ x.events = s.events
        ∧ x.store.damaged = s.store.damaged ∧ x.store.orphans = s.store.orphans ∧ x.store.overflow = s.store.overflow)
      ∧ ∀ r, (s.memory.meterRow n).content = some r →
        (s.store.rowOf r.meter = none → x.store.condition n = .record ∧ x.store.rowOf r.meter = some n
          ∧ (∀ j, j ∈ x.store.damaged ↔ j ∈ s.store.damaged ∨ lost ∧ j = n)
          ∧ x.events = (if lost ∧ n ∉ s.store.damaged then { s.events with rowDamaged := true } else s.events)
          ∧ x.store.orphans = s.store.orphans ∧ x.store.overflow = s.store.overflow)
        ∧ ∀ k, s.store.rowOf r.meter = some k → k ≠ n →
          let known := if (s.memory.meterRow k).words.sequence = .uncorrectable then none
            else (s.memory.meterRow k).content.map (·.sequence)
          (w.sequence ≠ .uncorrectable ∧ (∀ q, known = some q → q < r.sequence) →
            x.store.condition n = .record ∧ x.store.rowOf r.meter = some n ∧ orphaned k
              ∧ ∀ j, j ∈ x.store.damaged ↔ j ∈ s.store.damaged ∧ j ≠ k ∨ lost ∧ j = n)
          ∧ (¬ (w.sequence ≠ .uncorrectable ∧ (∀ q, known = some q → q < r.sequence)) →
            orphaned n ∧ x.store.rowOf r.meter = some k ∧ x.store.condition k = s.store.condition k
              ∧ ∀ j, j ∈ x.store.damaged ↔ j ∈ s.store.damaged ∧ j ≠ n)))
  ∧ ∀ (n : Nat) (d : Decay) (s t u : State), s.current = some (.scan n) → t = (s.scanFindings n d).finishOp →
    (n < 16383 → exec (.scanRowRead d) s = .next (t.place (.scan (n + 1))))
    ∧ (n = 16383 →
      u = (if t.authority.overdue = true then { t with office := .ready, events := { t.events with dayOverdue := true } }
        else if t.settings.dayLimit * 60 ≤ t.authority.dayAge then
          { t with
            office := .ready
            authority := { t.authority with overdue := true }
            events := { t.events with dayOverdue := true } }.place (.office .dayAge)
        else { t with office := .ready }) →
      exec (.scanRowRead d) s = .next (if t.authority.available < t.settings.lowMark then
          { u with events := { u.events with authorityLow := true } }
        else u))

/-! ## What every step keeps -/

/-- Every step keeps record memory in its canonical form; the store's tables with each row and meter listed once, in rising
order (R9 to R12); the supply state at what the inputs say with engine A enabled and engine B parked outside MAINS (R102,
R104, R162); and at most one lock holder for a meter (R109). -/
def Obligations.StepKeepsMemoryTablesSupplyAndLocks : Prop :=
  ∀ s t : State, step s = .next t →
    (s.memory.wf → t.memory.wf) ∧ (s.store.Lawful → t.store.Lawful) ∧ (s.SupplyLawful → t.SupplyLawful)
      ∧ (s.locks.Distinct → t.locks.Distinct)

/-- From every lawful state each step goes on to a lawful state. Beside the laws of memory, tables, supply and locks: every
lane keeps its limits and the rules of its state (R74, R79, R80, R83, R89, R97) and the in-flight lists agree with what the
engines have in hand. The index has one entry for each RECORD row and no other, the free list holds the FREE rows, and a
damaged row is a RECORD (R9 to R12). The store and the cipher keep nothing waiting while idle (R72, R148), each BUSY engine
waits for exactly one thing, a claim, a row operation or a token, and a WORKING link for one answer (R112, R118, R174). The
reserved authority is what the BUSY engines have reserved, spent plus reserved is at most granted, and the office row holds the
unit's amounts (R127, R128, R132); the markers in the commit rows fit them (R158, R160). A slot is LOADED with what its key
row holds, a slot in use is LOADED, no two key rows hold one generation, and each in-use count is the number of engine items
that use the slot (R65, R66). Until start-up is over no engine is BUSY and the store holds start-up's operations alone (R166). -/
def Obligations.LawfulStatesStepSafely : Prop :=
  ∀ s : State, s.Lawful → s.StepsSafely
end

