-- ==== Sys2Proof/Laws/Frame.lean ====
section
/-! SUPPORT. The laws of numbers in byte fields and of the frame check (R184, R187): what a field of two bytes reads back as,
that a run of bytes followed by its own check leaves the remainder register at 0, and that the register tells every two
bytes and every two remainders apart. -/

namespace Sys2Proof.Machine

open Sys2Proof

/-! ### Numbers in byte fields -/

theorem natToBytes_length (w n : Nat) : (natToBytes w n).length = w := by
  induction w with
  | zero => rfl
  | succ w ih => simp [natToBytes, ih]

theorem bytesToNat_two (a b : Byte) : bytesToNat [a, b] = a.toNat * 256 + b.toNat := by
  simp [bytesToNat]

theorem bytesToNat_natToBytes_two (n : Nat) (h : n < 65536) : bytesToNat (natToBytes 2 n) = n := by
  simp [natToBytes, bytesToNat_two]
  omega

/-! ### The remainder register -/

/-- The register is linear: a difference whose top bit is the bit fed only shifts along. -/
theorem crcBit_xor (t y : BitVec 16) (fed : Bool) (h : y.msb = fed) :
    crcBit (t ^^^ y) fed = crcBit t false ^^^ (y <<< 1) := by
  subst h
  have e : (t ^^^ y) <<< 1 = (t <<< 1) ^^^ (y <<< 1) := BitVec.shiftLeft_xor_distrib ..
  unfold crcBit
  rw [BitVec.msb_xor, e]
  cases t.msb <;> cases y.msb <;> simp [BitVec.xor_assoc] <;> rw [BitVec.xor_comm (y <<< 1)]

theorem msb_shiftLeft_own (r : BitVec 16) (i : Nat) (h : i ≤ 15) : (r <<< i).msb = r.getLsbD (15 - i) := by
  rw [BitVec.msb_eq_getLsbD_last, BitVec.getLsbD_shiftLeft]
  simp [show ¬ 15 < i by omega]

/-- Feeding a byte is feeding eight 0 bits to the register with that byte combined into its upper half. -/
theorem crcByte_xor (r : BitVec 16) (b : Byte) : crcByte r b = crcByte (r ^^^ (b.zeroExtend 16 <<< 8)) 0 := by
  have hx : ∀ i, i ≤ 7 → ((b.zeroExtend 16 <<< 8) <<< i : BitVec 16).msb = b.getLsbD (7 - i) := by
    intro i hi
    rw [msb_shiftLeft_own _ _ (by omega), BitVec.getLsbD_shiftLeft, BitVec.getLsbD_setWidth]
    simp [show ¬ 15 - i < 8 by omega, show 15 - i < 16 by omega,
      show 15 - i - 8 = 7 - i by omega, show 7 - i < 16 by omega]
  have step := fun (t : BitVec 16) (i : Nat) (hi : i ≤ 7) => crcBit_xor t ((b.zeroExtend 16 <<< 8) <<< i) _ (hx i hi)
  have e8 : (b.zeroExtend 16 <<< 8 : BitVec 16) <<< 8 = 0#16 := by
    rw [← BitVec.shiftLeft_add]
    exact BitVec.shiftLeft_eq_zero (by omega)
  generalize (b.zeroExtend 16 <<< 8 : BitVec 16) = X at *
  obtain ⟨t, rfl⟩ : ∃ t, r = t ^^^ X := ⟨r ^^^ X, by rw [BitVec.xor_assoc, BitVec.xor_self, BitVec.xor_zero]⟩
  have step' : ∀ (t : BitVec 16) (i : Nat), i ≤ 7 →
      crcBit (t ^^^ X <<< i) (b.getLsbD (7 - i)) = crcBit t false ^^^ X <<< (i + 1) := by
    intro t i hi
    rw [step t i hi, ← BitVec.shiftLeft_add]
  rw [BitVec.xor_assoc, BitVec.xor_self, BitVec.xor_zero]
  show crcBit (crcBit (crcBit (crcBit (crcBit (crcBit (crcBit (crcBit (t ^^^ X) (b.getLsbD 7)) (b.getLsbD 6))
      (b.getLsbD 5)) (b.getLsbD 4)) (b.getLsbD 3)) (b.getLsbD 2)) (b.getLsbD 1)) (b.getLsbD 0)
    = crcBit (crcBit (crcBit (crcBit (crcBit (crcBit (crcBit (crcBit t false) false) false) false) false) false)
      false) false
  have s0 : ∀ t, crcBit (t ^^^ X) (b.getLsbD 7) = crcBit t false ^^^ X <<< 1 := fun t => by
    simpa using step' t 0 (by omega)
  rw [s0, step' _ 1 (by omega), step' _ 2 (by omega), step' _ 3 (by omega), step' _ 4 (by omega), step' _ 5 (by omega),
    step' _ 6 (by omega), step' _ 7 (by omega), e8, BitVec.xor_zero]

/-- A 0 bit fed tells every two registers apart: the new low bit is the bit shifted out. -/
theorem crcBit_false_injective (a b : BitVec 16) (h : crcBit a false = crcBit b false) : a = b := by
  have e : ∀ x : BitVec 16, crcBit x false = if x.msb then (x <<< 1) ^^^ 32773#16 else x <<< 1 := by
    intro x; unfold crcBit; cases x.msb <;> simp
  rw [e, e] at h
  have low : ∀ x : BitVec 16, (if x.msb then (x <<< 1) ^^^ 32773#16 else x <<< 1).getLsbD 0 = x.msb := by
    intro x; cases hx : x.msb <;> simp
  have hm : a.msb = b.msb := by rw [← low a, ← low b, h]
  rw [hm] at h
  have h2 : a <<< 1 = b <<< 1 := by
    cases hb : b.msb <;> rw [hb] at h <;> simpa using h
  apply BitVec.eq_of_getLsbD_eq
  intro i hi
  by_cases h15 : i = 15
  · subst h15; simpa [BitVec.msb_eq_getLsbD_last] using hm
  · have := congrArg (·.getLsbD (i + 1)) h2
    simp at this; simpa [show i + 1 < 16 by omega] using this

/-- A byte fed tells every two registers apart. -/
theorem crcByte_injective_register (a b : BitVec 16) (x : Byte) (h : crcByte a x = crcByte b x) : a = b := by
  rw [crcByte_xor a, crcByte_xor b] at h
  simp only [crcByte, List.foldl] at h
  have step : ∀ p q : BitVec 16, crcBit p false = crcBit q false → p = q := crcBit_false_injective
  have h := step _ _ (step _ _ (step _ _ (step _ _ (step _ _ (step _ _ (step _ _ (step _ _ h)))))))
  simpa using h

/-- The register tells every two bytes apart. -/
theorem crcByte_injective_byte (a : BitVec 16) (x y : Byte) (h : crcByte a x = crcByte a y) : x = y := by
  rw [crcByte_xor a x, crcByte_xor a y] at h
  have h := crcByte_injective_register _ _ 0 h
  have h : (x.zeroExtend 16 <<< 8 : BitVec 16) = y.zeroExtend 16 <<< 8 := by simpa using h
  apply BitVec.eq_of_getLsbD_eq
  intro i hi
  have := congrArg (·.getLsbD (i + 8)) h
  simp at this
  simpa [show i + 8 < 16 by omega, show i < 16 by omega] using this

/-- A bit of the register itself, fed as it comes to the top, only shifts the register. -/
theorem crcBit_own (r : BitVec 16) (i : Nat) (h : i ≤ 15) : crcBit (r <<< i) (r.getLsbD (15 - i)) = r <<< (i + 1) := by
  simp [crcBit, msb_shiftLeft_own r i h, ← BitVec.shiftLeft_add]

/-- The register's own two bytes take it to 0. -/
theorem checkBytes_to_zero (r : BitVec 16) : (checkBytes r).foldl crcByte r = 0 := by
  have k := crcBit_own r
  have hb : ∀ j, j < 8 → (r.extractLsb' 8 8).getLsbD j = r.getLsbD (8 + j) := fun j hj => by
    simp [hj]
  have lb : ∀ j, j < 8 → (r.extractLsb' 0 8).getLsbD j = r.getLsbD j := fun j hj => by
    simp [hj]
  have k0 : crcBit r (r.getLsbD 15) = r <<< 1 := by simpa using k 0 (by omega)
  have e16 : r <<< 16 = 0 := BitVec.shiftLeft_eq_zero (by omega)
  show crcByte (crcByte r (r.extractLsb' 8 8)) (r.extractLsb' 0 8) = 0
  unfold crcByte
  rw [hb 7 (by omega), hb 6 (by omega), hb 5 (by omega), hb 4 (by omega), hb 3 (by omega), hb 2 (by omega),
    hb 1 (by omega), hb 0 (by omega), lb 7 (by omega), lb 6 (by omega), lb 5 (by omega), lb 4 (by omega),
    lb 3 (by omega), lb 2 (by omega), lb 1 (by omega), lb 0 (by omega)]
  simp only [List.foldl]
  rw [k0, k 1 (by omega), k 2 (by omega), k 3 (by omega), k 4 (by omega), k 5 (by omega), k 6 (by omega),
    k 7 (by omega), k 8 (by omega), k 9 (by omega), k 10 (by omega), k 11 (by omega), k 12 (by omega), k 13 (by omega),
    k 14 (by omega), k 15 (by omega), e16]

/-- A run of bytes followed by its check verifies (R187). -/
theorem frameCheck_append_own (bs : List Byte) : frameCheck (bs ++ checkBytes (frameCheck bs)) = 0 := by
  unfold frameCheck
  rw [List.foldl_append]
  exact checkBytes_to_zero _

end Sys2Proof.Machine
end

