-- ==== Sys2Proof/Laws/State.lean ====
section
/-! SUPPORT. The small lemmas of the state's updates: for each update, what every field of the state is after it. -/

namespace Sys2Proof.Machine

open Sys2Proof

/-! ### setLane -/

@[simp] theorem setLane_pending (s : State) (l : LaneId) (x : Lane) : (s.setLane l x).pending = s.pending := rfl
@[simp] theorem setLane_mainsOk (s : State) (l : LaneId) (x : Lane) : (s.setLane l x).mainsOk = s.mainsOk := rfl
@[simp] theorem setLane_pwrWarn (s : State) (l : LaneId) (x : Lane) : (s.setLane l x).pwrWarn = s.pwrWarn := rfl
@[simp] theorem setLane_resetHeld (s : State) (l : LaneId) (x : Lane) :
    (s.setLane l x).resetHeld = s.resetHeld := rfl
@[simp] theorem setLane_supply (s : State) (l : LaneId) (x : Lane) : (s.setLane l x).supply = s.supply := rfl
@[simp] theorem setLane_office (s : State) (l : LaneId) (x : Lane) : (s.setLane l x).office = s.office := rfl
@[simp] theorem setLane_faultRecord (s : State) (l : LaneId) (x : Lane) :
    (s.setLane l x).faultRecord = s.faultRecord := rfl
@[simp] theorem setLane_exchange (s : State) (l : LaneId) (x : Lane) : (s.setLane l x).exchange = s.exchange := rfl
@[simp] theorem setLane_events (s : State) (l : LaneId) (x : Lane) : (s.setLane l x).events = s.events := rfl
@[simp] theorem setLane_settings (s : State) (l : LaneId) (x : Lane) : (s.setLane l x).settings = s.settings := rfl
@[simp] theorem setLane_lanes (s : State) (l : LaneId) (x : Lane) : (s.setLane l x).lanes = s.lanes.set l x := rfl
@[simp] theorem setLane_laneSettings (s : State) (l : LaneId) (x : Lane) :
    (s.setLane l x).laneSettings = s.laneSettings := rfl
@[simp] theorem setLane_engines (s : State) (l : LaneId) (x : Lane) : (s.setLane l x).engines = s.engines := rfl
@[simp] theorem setLane_lastServed (s : State) (l : LaneId) (x : Lane) :
    (s.setLane l x).lastServed = s.lastServed := rfl
@[simp] theorem setLane_locks (s : State) (l : LaneId) (x : Lane) : (s.setLane l x).locks = s.locks := rfl
@[simp] theorem setLane_tariff (s : State) (l : LaneId) (x : Lane) : (s.setLane l x).tariff = s.tariff := rfl
@[simp] theorem setLane_slots (s : State) (l : LaneId) (x : Lane) : (s.setLane l x).slots = s.slots := rfl
@[simp] theorem setLane_cipher (s : State) (l : LaneId) (x : Lane) : (s.setLane l x).cipher = s.cipher := rfl
@[simp] theorem setLane_grantKey (s : State) (l : LaneId) (x : Lane) : (s.setLane l x).grantKey = s.grantKey := rfl
@[simp] theorem setLane_authority (s : State) (l : LaneId) (x : Lane) :
    (s.setLane l x).authority = s.authority := rfl
@[simp] theorem setLane_store (s : State) (l : LaneId) (x : Lane) : (s.setLane l x).store = s.store := rfl
@[simp] theorem setLane_memory (s : State) (l : LaneId) (x : Lane) : (s.setLane l x).memory = s.memory := rfl

/-! ### updateLane -/

@[simp] theorem updateLane_pending (s : State) (l : LaneId) (f : Lane → Lane) :
    (s.updateLane l f).pending = s.pending := rfl
@[simp] theorem updateLane_mainsOk (s : State) (l : LaneId) (f : Lane → Lane) :
    (s.updateLane l f).mainsOk = s.mainsOk := rfl
@[simp] theorem updateLane_pwrWarn (s : State) (l : LaneId) (f : Lane → Lane) :
    (s.updateLane l f).pwrWarn = s.pwrWarn := rfl
@[simp] theorem updateLane_resetHeld (s : State) (l : LaneId) (f : Lane → Lane) :
    (s.updateLane l f).resetHeld = s.resetHeld := rfl
@[simp] theorem updateLane_supply (s : State) (l : LaneId) (f : Lane → Lane) :
    (s.updateLane l f).supply = s.supply := rfl
@[simp] theorem updateLane_office (s : State) (l : LaneId) (f : Lane → Lane) :
    (s.updateLane l f).office = s.office := rfl
@[simp] theorem updateLane_faultRecord (s : State) (l : LaneId) (f : Lane → Lane) :
    (s.updateLane l f).faultRecord = s.faultRecord := rfl
@[simp] theorem updateLane_exchange (s : State) (l : LaneId) (f : Lane → Lane) :
    (s.updateLane l f).exchange = s.exchange := rfl
@[simp] theorem updateLane_events (s : State) (l : LaneId) (f : Lane → Lane) :
    (s.updateLane l f).events = s.events := rfl
@[simp] theorem updateLane_settings (s : State) (l : LaneId) (f : Lane → Lane) :
    (s.updateLane l f).settings = s.settings := rfl
@[simp] theorem updateLane_lanes (s : State) (l : LaneId) (f : Lane → Lane) :
    (s.updateLane l f).lanes = s.lanes.set l (f (s.lane l)) := rfl
@[simp] theorem updateLane_laneSettings (s : State) (l : LaneId) (f : Lane → Lane) :
    (s.updateLane l f).laneSettings = s.laneSettings := rfl
@[simp] theorem updateLane_engines (s : State) (l : LaneId) (f : Lane → Lane) :
    (s.updateLane l f).engines = s.engines := rfl
@[simp] theorem updateLane_lastServed (s : State) (l : LaneId) (f : Lane → Lane) :
    (s.updateLane l f).lastServed = s.lastServed := rfl
@[simp] theorem updateLane_locks (s : State) (l : LaneId) (f : Lane → Lane) :
    (s.updateLane l f).locks = s.locks := rfl
@[simp] theorem updateLane_tariff (s : State) (l : LaneId) (f : Lane → Lane) :
    (s.updateLane l f).tariff = s.tariff := rfl
@[simp] theorem updateLane_slots (s : State) (l : LaneId) (f : Lane → Lane) :
    (s.updateLane l f).slots = s.slots := rfl
@[simp] theorem updateLane_cipher (s : State) (l : LaneId) (f : Lane → Lane) :
    (s.updateLane l f).cipher = s.cipher := rfl
@[simp] theorem updateLane_grantKey (s : State) (l : LaneId) (f : Lane → Lane) :
    (s.updateLane l f).grantKey = s.grantKey := rfl
@[simp] theorem updateLane_authority (s : State) (l : LaneId) (f : Lane → Lane) :
    (s.updateLane l f).authority = s.authority := rfl
@[simp] theorem updateLane_store (s : State) (l : LaneId) (f : Lane → Lane) :
    (s.updateLane l f).store = s.store := rfl
@[simp] theorem updateLane_memory (s : State) (l : LaneId) (f : Lane → Lane) :
    (s.updateLane l f).memory = s.memory := rfl

/-! ### setEngine -/

@[simp] theorem setEngine_pending (s : State) (e : EngineId) (x : Engine) :
    (s.setEngine e x).pending = s.pending := rfl
@[simp] theorem setEngine_mainsOk (s : State) (e : EngineId) (x : Engine) :
    (s.setEngine e x).mainsOk = s.mainsOk := rfl
@[simp] theorem setEngine_pwrWarn (s : State) (e : EngineId) (x : Engine) :
    (s.setEngine e x).pwrWarn = s.pwrWarn := rfl
@[simp] theorem setEngine_resetHeld (s : State) (e : EngineId) (x : Engine) :
    (s.setEngine e x).resetHeld = s.resetHeld := rfl
@[simp] theorem setEngine_supply (s : State) (e : EngineId) (x : Engine) :
    (s.setEngine e x).supply = s.supply := rfl
@[simp] theorem setEngine_office (s : State) (e : EngineId) (x : Engine) :
    (s.setEngine e x).office = s.office := rfl
@[simp] theorem setEngine_faultRecord (s : State) (e : EngineId) (x : Engine) :
    (s.setEngine e x).faultRecord = s.faultRecord := rfl
@[simp] theorem setEngine_exchange (s : State) (e : EngineId) (x : Engine) :
    (s.setEngine e x).exchange = s.exchange := rfl
@[simp] theorem setEngine_events (s : State) (e : EngineId) (x : Engine) :
    (s.setEngine e x).events = s.events := rfl
@[simp] theorem setEngine_settings (s : State) (e : EngineId) (x : Engine) :
    (s.setEngine e x).settings = s.settings := rfl
@[simp] theorem setEngine_lanes (s : State) (e : EngineId) (x : Engine) : (s.setEngine e x).lanes = s.lanes := rfl
@[simp] theorem setEngine_laneSettings (s : State) (e : EngineId) (x : Engine) :
    (s.setEngine e x).laneSettings = s.laneSettings := rfl
@[simp] theorem setEngine_engines (s : State) (e : EngineId) (x : Engine) :
    (s.setEngine e x).engines = s.engines.set e x := rfl
@[simp] theorem setEngine_lastServed (s : State) (e : EngineId) (x : Engine) :
    (s.setEngine e x).lastServed = s.lastServed := rfl
@[simp] theorem setEngine_locks (s : State) (e : EngineId) (x : Engine) : (s.setEngine e x).locks = s.locks := rfl
@[simp] theorem setEngine_tariff (s : State) (e : EngineId) (x : Engine) :
    (s.setEngine e x).tariff = s.tariff := rfl
@[simp] theorem setEngine_slots (s : State) (e : EngineId) (x : Engine) : (s.setEngine e x).slots = s.slots := rfl
@[simp] theorem setEngine_cipher (s : State) (e : EngineId) (x : Engine) :
    (s.setEngine e x).cipher = s.cipher := rfl
@[simp] theorem setEngine_grantKey (s : State) (e : EngineId) (x : Engine) :
    (s.setEngine e x).grantKey = s.grantKey := rfl
@[simp] theorem setEngine_authority (s : State) (e : EngineId) (x : Engine) :
    (s.setEngine e x).authority = s.authority := rfl
@[simp] theorem setEngine_store (s : State) (e : EngineId) (x : Engine) : (s.setEngine e x).store = s.store := rfl
@[simp] theorem setEngine_memory (s : State) (e : EngineId) (x : Engine) :
    (s.setEngine e x).memory = s.memory := rfl

/-! ### setSlot -/

@[simp] theorem setSlot_pending (s : State) (i : SlotId) (k : KeySlot) : (s.setSlot i k).pending = s.pending := rfl
@[simp] theorem setSlot_mainsOk (s : State) (i : SlotId) (k : KeySlot) : (s.setSlot i k).mainsOk = s.mainsOk := rfl
@[simp] theorem setSlot_pwrWarn (s : State) (i : SlotId) (k : KeySlot) : (s.setSlot i k).pwrWarn = s.pwrWarn := rfl
@[simp] theorem setSlot_resetHeld (s : State) (i : SlotId) (k : KeySlot) :
    (s.setSlot i k).resetHeld = s.resetHeld := rfl
@[simp] theorem setSlot_supply (s : State) (i : SlotId) (k : KeySlot) : (s.setSlot i k).supply = s.supply := rfl
@[simp] theorem setSlot_office (s : State) (i : SlotId) (k : KeySlot) : (s.setSlot i k).office = s.office := rfl
@[simp] theorem setSlot_faultRecord (s : State) (i : SlotId) (k : KeySlot) :
    (s.setSlot i k).faultRecord = s.faultRecord := rfl
@[simp] theorem setSlot_exchange (s : State) (i : SlotId) (k : KeySlot) :
    (s.setSlot i k).exchange = s.exchange := rfl
@[simp] theorem setSlot_events (s : State) (i : SlotId) (k : KeySlot) : (s.setSlot i k).events = s.events := rfl
@[simp] theorem setSlot_settings (s : State) (i : SlotId) (k : KeySlot) :
    (s.setSlot i k).settings = s.settings := rfl
@[simp] theorem setSlot_lanes (s : State) (i : SlotId) (k : KeySlot) : (s.setSlot i k).lanes = s.lanes := rfl
@[simp] theorem setSlot_laneSettings (s : State) (i : SlotId) (k : KeySlot) :
    (s.setSlot i k).laneSettings = s.laneSettings := rfl
@[simp] theorem setSlot_engines (s : State) (i : SlotId) (k : KeySlot) : (s.setSlot i k).engines = s.engines := rfl
@[simp] theorem setSlot_lastServed (s : State) (i : SlotId) (k : KeySlot) :
    (s.setSlot i k).lastServed = s.lastServed := rfl
@[simp] theorem setSlot_locks (s : State) (i : SlotId) (k : KeySlot) : (s.setSlot i k).locks = s.locks := rfl
@[simp] theorem setSlot_tariff (s : State) (i : SlotId) (k : KeySlot) : (s.setSlot i k).tariff = s.tariff := rfl
@[simp] theorem setSlot_slots (s : State) (i : SlotId) (k : KeySlot) :
    (s.setSlot i k).slots = s.slots.set i k := rfl
@[simp] theorem setSlot_cipher (s : State) (i : SlotId) (k : KeySlot) : (s.setSlot i k).cipher = s.cipher := rfl
@[simp] theorem setSlot_grantKey (s : State) (i : SlotId) (k : KeySlot) :
    (s.setSlot i k).grantKey = s.grantKey := rfl
@[simp] theorem setSlot_authority (s : State) (i : SlotId) (k : KeySlot) :
    (s.setSlot i k).authority = s.authority := rfl
@[simp] theorem setSlot_store (s : State) (i : SlotId) (k : KeySlot) : (s.setSlot i k).store = s.store := rfl
@[simp] theorem setSlot_memory (s : State) (i : SlotId) (k : KeySlot) : (s.setSlot i k).memory = s.memory := rfl

/-! ### countErrors -/

@[simp] theorem countErrors_pending (s : State) (n : Nat) : (s.countErrors n).pending = s.pending := rfl
@[simp] theorem countErrors_mainsOk (s : State) (n : Nat) : (s.countErrors n).mainsOk = s.mainsOk := rfl
@[simp] theorem countErrors_pwrWarn (s : State) (n : Nat) : (s.countErrors n).pwrWarn = s.pwrWarn := rfl
@[simp] theorem countErrors_resetHeld (s : State) (n : Nat) : (s.countErrors n).resetHeld = s.resetHeld := rfl
@[simp] theorem countErrors_supply (s : State) (n : Nat) : (s.countErrors n).supply = s.supply := rfl
@[simp] theorem countErrors_office (s : State) (n : Nat) : (s.countErrors n).office = s.office := rfl
@[simp] theorem countErrors_faultRecord (s : State) (n : Nat) :
    (s.countErrors n).faultRecord = s.faultRecord := rfl
@[simp] theorem countErrors_exchange (s : State) (n : Nat) : (s.countErrors n).exchange = s.exchange := rfl
@[simp] theorem countErrors_events (s : State) (n : Nat) : (s.countErrors n).events = s.events := rfl
@[simp] theorem countErrors_settings (s : State) (n : Nat) : (s.countErrors n).settings = s.settings := rfl
@[simp] theorem countErrors_lanes (s : State) (n : Nat) : (s.countErrors n).lanes = s.lanes := rfl
@[simp] theorem countErrors_laneSettings (s : State) (n : Nat) :
    (s.countErrors n).laneSettings = s.laneSettings := rfl
@[simp] theorem countErrors_engines (s : State) (n : Nat) : (s.countErrors n).engines = s.engines := rfl
@[simp] theorem countErrors_lastServed (s : State) (n : Nat) : (s.countErrors n).lastServed = s.lastServed := rfl
@[simp] theorem countErrors_locks (s : State) (n : Nat) : (s.countErrors n).locks = s.locks := rfl
@[simp] theorem countErrors_tariff (s : State) (n : Nat) : (s.countErrors n).tariff = s.tariff := rfl
@[simp] theorem countErrors_slots (s : State) (n : Nat) : (s.countErrors n).slots = s.slots := rfl
@[simp] theorem countErrors_cipher (s : State) (n : Nat) : (s.countErrors n).cipher = s.cipher := rfl
@[simp] theorem countErrors_grantKey (s : State) (n : Nat) : (s.countErrors n).grantKey = s.grantKey := rfl
@[simp] theorem countErrors_authority (s : State) (n : Nat) : (s.countErrors n).authority = s.authority := rfl
@[simp] theorem countErrors_store (s : State) (n : Nat) : (s.countErrors n).store = s.store.countErrors n := rfl
@[simp] theorem countErrors_memory (s : State) (n : Nat) : (s.countErrors n).memory = s.memory := rfl

/-! ### raiseAuthorityLow -/

@[simp] theorem raiseAuthorityLow_pending (s : State) : (s.raiseAuthorityLow).pending = s.pending := rfl
@[simp] theorem raiseAuthorityLow_mainsOk (s : State) : (s.raiseAuthorityLow).mainsOk = s.mainsOk := rfl
@[simp] theorem raiseAuthorityLow_pwrWarn (s : State) : (s.raiseAuthorityLow).pwrWarn = s.pwrWarn := rfl
@[simp] theorem raiseAuthorityLow_resetHeld (s : State) : (s.raiseAuthorityLow).resetHeld = s.resetHeld := rfl
@[simp] theorem raiseAuthorityLow_supply (s : State) : (s.raiseAuthorityLow).supply = s.supply := rfl
@[simp] theorem raiseAuthorityLow_office (s : State) : (s.raiseAuthorityLow).office = s.office := rfl
@[simp] theorem raiseAuthorityLow_faultRecord (s : State) :
    (s.raiseAuthorityLow).faultRecord = s.faultRecord := rfl
@[simp] theorem raiseAuthorityLow_exchange (s : State) : (s.raiseAuthorityLow).exchange = s.exchange := rfl
@[simp] theorem raiseAuthorityLow_events (s : State) :
    (s.raiseAuthorityLow).events = { s.events with authorityLow := true } := rfl
@[simp] theorem raiseAuthorityLow_settings (s : State) : (s.raiseAuthorityLow).settings = s.settings := rfl
@[simp] theorem raiseAuthorityLow_lanes (s : State) : (s.raiseAuthorityLow).lanes = s.lanes := rfl
@[simp] theorem raiseAuthorityLow_laneSettings (s : State) :
    (s.raiseAuthorityLow).laneSettings = s.laneSettings := rfl
@[simp] theorem raiseAuthorityLow_engines (s : State) : (s.raiseAuthorityLow).engines = s.engines := rfl
@[simp] theorem raiseAuthorityLow_lastServed (s : State) : (s.raiseAuthorityLow).lastServed = s.lastServed := rfl
@[simp] theorem raiseAuthorityLow_locks (s : State) : (s.raiseAuthorityLow).locks = s.locks := rfl
@[simp] theorem raiseAuthorityLow_tariff (s : State) : (s.raiseAuthorityLow).tariff = s.tariff := rfl
@[simp] theorem raiseAuthorityLow_slots (s : State) : (s.raiseAuthorityLow).slots = s.slots := rfl
@[simp] theorem raiseAuthorityLow_cipher (s : State) : (s.raiseAuthorityLow).cipher = s.cipher := rfl
@[simp] theorem raiseAuthorityLow_grantKey (s : State) : (s.raiseAuthorityLow).grantKey = s.grantKey := rfl
@[simp] theorem raiseAuthorityLow_authority (s : State) : (s.raiseAuthorityLow).authority = s.authority := rfl
@[simp] theorem raiseAuthorityLow_store (s : State) : (s.raiseAuthorityLow).store = s.store := rfl
@[simp] theorem raiseAuthorityLow_memory (s : State) : (s.raiseAuthorityLow).memory = s.memory := rfl

/-! ### raiseLaneBarred -/

@[simp] theorem raiseLaneBarred_pending (s : State) : (s.raiseLaneBarred).pending = s.pending := rfl
@[simp] theorem raiseLaneBarred_mainsOk (s : State) : (s.raiseLaneBarred).mainsOk = s.mainsOk := rfl
@[simp] theorem raiseLaneBarred_pwrWarn (s : State) : (s.raiseLaneBarred).pwrWarn = s.pwrWarn := rfl
@[simp] theorem raiseLaneBarred_resetHeld (s : State) : (s.raiseLaneBarred).resetHeld = s.resetHeld := rfl
@[simp] theorem raiseLaneBarred_supply (s : State) : (s.raiseLaneBarred).supply = s.supply := rfl
@[simp] theorem raiseLaneBarred_office (s : State) : (s.raiseLaneBarred).office = s.office := rfl
@[simp] theorem raiseLaneBarred_faultRecord (s : State) : (s.raiseLaneBarred).faultRecord = s.faultRecord := rfl
@[simp] theorem raiseLaneBarred_exchange (s : State) : (s.raiseLaneBarred).exchange = s.exchange := rfl
@[simp] theorem raiseLaneBarred_events (s : State) :
    (s.raiseLaneBarred).events = { s.events with laneBarred := true } := rfl
@[simp] theorem raiseLaneBarred_settings (s : State) : (s.raiseLaneBarred).settings = s.settings := rfl
@[simp] theorem raiseLaneBarred_lanes (s : State) : (s.raiseLaneBarred).lanes = s.lanes := rfl
@[simp] theorem raiseLaneBarred_laneSettings (s : State) : (s.raiseLaneBarred).laneSettings = s.laneSettings := rfl
@[simp] theorem raiseLaneBarred_engines (s : State) : (s.raiseLaneBarred).engines = s.engines := rfl
@[simp] theorem raiseLaneBarred_lastServed (s : State) : (s.raiseLaneBarred).lastServed = s.lastServed := rfl
@[simp] theorem raiseLaneBarred_locks (s : State) : (s.raiseLaneBarred).locks = s.locks := rfl
@[simp] theorem raiseLaneBarred_tariff (s : State) : (s.raiseLaneBarred).tariff = s.tariff := rfl
@[simp] theorem raiseLaneBarred_slots (s : State) : (s.raiseLaneBarred).slots = s.slots := rfl
@[simp] theorem raiseLaneBarred_cipher (s : State) : (s.raiseLaneBarred).cipher = s.cipher := rfl
@[simp] theorem raiseLaneBarred_grantKey (s : State) : (s.raiseLaneBarred).grantKey = s.grantKey := rfl
@[simp] theorem raiseLaneBarred_authority (s : State) : (s.raiseLaneBarred).authority = s.authority := rfl
@[simp] theorem raiseLaneBarred_store (s : State) : (s.raiseLaneBarred).store = s.store := rfl
@[simp] theorem raiseLaneBarred_memory (s : State) : (s.raiseLaneBarred).memory = s.memory := rfl

/-! ### raiseDayOverdue -/

@[simp] theorem raiseDayOverdue_pending (s : State) : (s.raiseDayOverdue).pending = s.pending := rfl
@[simp] theorem raiseDayOverdue_mainsOk (s : State) : (s.raiseDayOverdue).mainsOk = s.mainsOk := rfl
@[simp] theorem raiseDayOverdue_pwrWarn (s : State) : (s.raiseDayOverdue).pwrWarn = s.pwrWarn := rfl
@[simp] theorem raiseDayOverdue_resetHeld (s : State) : (s.raiseDayOverdue).resetHeld = s.resetHeld := rfl
@[simp] theorem raiseDayOverdue_supply (s : State) : (s.raiseDayOverdue).supply = s.supply := rfl
@[simp] theorem raiseDayOverdue_office (s : State) : (s.raiseDayOverdue).office = s.office := rfl
@[simp] theorem raiseDayOverdue_faultRecord (s : State) : (s.raiseDayOverdue).faultRecord = s.faultRecord := rfl
@[simp] theorem raiseDayOverdue_exchange (s : State) : (s.raiseDayOverdue).exchange = s.exchange := rfl
@[simp] theorem raiseDayOverdue_events (s : State) :
    (s.raiseDayOverdue).events = { s.events with dayOverdue := true } := rfl
@[simp] theorem raiseDayOverdue_settings (s : State) : (s.raiseDayOverdue).settings = s.settings := rfl
@[simp] theorem raiseDayOverdue_lanes (s : State) : (s.raiseDayOverdue).lanes = s.lanes := rfl
@[simp] theorem raiseDayOverdue_laneSettings (s : State) : (s.raiseDayOverdue).laneSettings = s.laneSettings := rfl
@[simp] theorem raiseDayOverdue_engines (s : State) : (s.raiseDayOverdue).engines = s.engines := rfl
@[simp] theorem raiseDayOverdue_lastServed (s : State) : (s.raiseDayOverdue).lastServed = s.lastServed := rfl
@[simp] theorem raiseDayOverdue_locks (s : State) : (s.raiseDayOverdue).locks = s.locks := rfl
@[simp] theorem raiseDayOverdue_tariff (s : State) : (s.raiseDayOverdue).tariff = s.tariff := rfl
@[simp] theorem raiseDayOverdue_slots (s : State) : (s.raiseDayOverdue).slots = s.slots := rfl
@[simp] theorem raiseDayOverdue_cipher (s : State) : (s.raiseDayOverdue).cipher = s.cipher := rfl
@[simp] theorem raiseDayOverdue_grantKey (s : State) : (s.raiseDayOverdue).grantKey = s.grantKey := rfl
@[simp] theorem raiseDayOverdue_authority (s : State) : (s.raiseDayOverdue).authority = s.authority := rfl
@[simp] theorem raiseDayOverdue_store (s : State) : (s.raiseDayOverdue).store = s.store := rfl
@[simp] theorem raiseDayOverdue_memory (s : State) : (s.raiseDayOverdue).memory = s.memory := rfl

/-! ### raiseRowDamaged -/

@[simp] theorem raiseRowDamaged_pending (s : State) : (s.raiseRowDamaged).pending = s.pending := rfl
@[simp] theorem raiseRowDamaged_mainsOk (s : State) : (s.raiseRowDamaged).mainsOk = s.mainsOk := rfl
@[simp] theorem raiseRowDamaged_pwrWarn (s : State) : (s.raiseRowDamaged).pwrWarn = s.pwrWarn := rfl
@[simp] theorem raiseRowDamaged_resetHeld (s : State) : (s.raiseRowDamaged).resetHeld = s.resetHeld := rfl
@[simp] theorem raiseRowDamaged_supply (s : State) : (s.raiseRowDamaged).supply = s.supply := rfl
@[simp] theorem raiseRowDamaged_office (s : State) : (s.raiseRowDamaged).office = s.office := rfl
@[simp] theorem raiseRowDamaged_faultRecord (s : State) : (s.raiseRowDamaged).faultRecord = s.faultRecord := rfl
@[simp] theorem raiseRowDamaged_exchange (s : State) : (s.raiseRowDamaged).exchange = s.exchange := rfl
@[simp] theorem raiseRowDamaged_events (s : State) :
    (s.raiseRowDamaged).events = { s.events with rowDamaged := true } := rfl
@[simp] theorem raiseRowDamaged_settings (s : State) : (s.raiseRowDamaged).settings = s.settings := rfl
@[simp] theorem raiseRowDamaged_lanes (s : State) : (s.raiseRowDamaged).lanes = s.lanes := rfl
@[simp] theorem raiseRowDamaged_laneSettings (s : State) : (s.raiseRowDamaged).laneSettings = s.laneSettings := rfl
@[simp] theorem raiseRowDamaged_engines (s : State) : (s.raiseRowDamaged).engines = s.engines := rfl
@[simp] theorem raiseRowDamaged_lastServed (s : State) : (s.raiseRowDamaged).lastServed = s.lastServed := rfl
@[simp] theorem raiseRowDamaged_locks (s : State) : (s.raiseRowDamaged).locks = s.locks := rfl
@[simp] theorem raiseRowDamaged_tariff (s : State) : (s.raiseRowDamaged).tariff = s.tariff := rfl
@[simp] theorem raiseRowDamaged_slots (s : State) : (s.raiseRowDamaged).slots = s.slots := rfl
@[simp] theorem raiseRowDamaged_cipher (s : State) : (s.raiseRowDamaged).cipher = s.cipher := rfl
@[simp] theorem raiseRowDamaged_grantKey (s : State) : (s.raiseRowDamaged).grantKey = s.grantKey := rfl
@[simp] theorem raiseRowDamaged_authority (s : State) : (s.raiseRowDamaged).authority = s.authority := rfl
@[simp] theorem raiseRowDamaged_store (s : State) : (s.raiseRowDamaged).store = s.store := rfl
@[simp] theorem raiseRowDamaged_memory (s : State) : (s.raiseRowDamaged).memory = s.memory := rfl

/-! ### raiseSupplyChange -/

@[simp] theorem raiseSupplyChange_pending (s : State) : (s.raiseSupplyChange).pending = s.pending := rfl
@[simp] theorem raiseSupplyChange_mainsOk (s : State) : (s.raiseSupplyChange).mainsOk = s.mainsOk := rfl
@[simp] theorem raiseSupplyChange_pwrWarn (s : State) : (s.raiseSupplyChange).pwrWarn = s.pwrWarn := rfl
@[simp] theorem raiseSupplyChange_resetHeld (s : State) : (s.raiseSupplyChange).resetHeld = s.resetHeld := rfl
@[simp] theorem raiseSupplyChange_supply (s : State) : (s.raiseSupplyChange).supply = s.supply := rfl
@[simp] theorem raiseSupplyChange_office (s : State) : (s.raiseSupplyChange).office = s.office := rfl
@[simp] theorem raiseSupplyChange_faultRecord (s : State) :
    (s.raiseSupplyChange).faultRecord = s.faultRecord := rfl
@[simp] theorem raiseSupplyChange_exchange (s : State) : (s.raiseSupplyChange).exchange = s.exchange := rfl
@[simp] theorem raiseSupplyChange_events (s : State) :
    (s.raiseSupplyChange).events = { s.events with supplyChange := true } := rfl
@[simp] theorem raiseSupplyChange_settings (s : State) : (s.raiseSupplyChange).settings = s.settings := rfl
@[simp] theorem raiseSupplyChange_lanes (s : State) : (s.raiseSupplyChange).lanes = s.lanes := rfl
@[simp] theorem raiseSupplyChange_laneSettings (s : State) :
    (s.raiseSupplyChange).laneSettings = s.laneSettings := rfl
@[simp] theorem raiseSupplyChange_engines (s : State) : (s.raiseSupplyChange).engines = s.engines := rfl
@[simp] theorem raiseSupplyChange_lastServed (s : State) : (s.raiseSupplyChange).lastServed = s.lastServed := rfl
@[simp] theorem raiseSupplyChange_locks (s : State) : (s.raiseSupplyChange).locks = s.locks := rfl
@[simp] theorem raiseSupplyChange_tariff (s : State) : (s.raiseSupplyChange).tariff = s.tariff := rfl
@[simp] theorem raiseSupplyChange_slots (s : State) : (s.raiseSupplyChange).slots = s.slots := rfl
@[simp] theorem raiseSupplyChange_cipher (s : State) : (s.raiseSupplyChange).cipher = s.cipher := rfl
@[simp] theorem raiseSupplyChange_grantKey (s : State) : (s.raiseSupplyChange).grantKey = s.grantKey := rfl
@[simp] theorem raiseSupplyChange_authority (s : State) : (s.raiseSupplyChange).authority = s.authority := rfl
@[simp] theorem raiseSupplyChange_store (s : State) : (s.raiseSupplyChange).store = s.store := rfl
@[simp] theorem raiseSupplyChange_memory (s : State) : (s.raiseSupplyChange).memory = s.memory := rfl

/-! ### beginExchange -/

@[simp] theorem beginExchange_pending (s : State) (l : LaneId) (h : Header) :
    (s.beginExchange l h).pending = s.pending := rfl
@[simp] theorem beginExchange_mainsOk (s : State) (l : LaneId) (h : Header) :
    (s.beginExchange l h).mainsOk = s.mainsOk := rfl
@[simp] theorem beginExchange_pwrWarn (s : State) (l : LaneId) (h : Header) :
    (s.beginExchange l h).pwrWarn = s.pwrWarn := rfl
@[simp] theorem beginExchange_resetHeld (s : State) (l : LaneId) (h : Header) :
    (s.beginExchange l h).resetHeld = s.resetHeld := rfl
@[simp] theorem beginExchange_supply (s : State) (l : LaneId) (h : Header) :
    (s.beginExchange l h).supply = s.supply := rfl
@[simp] theorem beginExchange_office (s : State) (l : LaneId) (h : Header) :
    (s.beginExchange l h).office = s.office := rfl
@[simp] theorem beginExchange_faultRecord (s : State) (l : LaneId) (h : Header) :
    (s.beginExchange l h).faultRecord = s.faultRecord := rfl
@[simp] theorem beginExchange_exchange (s : State) (l : LaneId) (h : Header) :
    (s.beginExchange l h).exchange = .working l h false := rfl
@[simp] theorem beginExchange_events (s : State) (l : LaneId) (h : Header) :
    (s.beginExchange l h).events = s.events := rfl
@[simp] theorem beginExchange_settings (s : State) (l : LaneId) (h : Header) :
    (s.beginExchange l h).settings = s.settings := rfl
@[simp] theorem beginExchange_lanes (s : State) (l : LaneId) (h : Header) :
    (s.beginExchange l h).lanes = s.lanes.set l (s.lane l).frameTaken := rfl
@[simp] theorem beginExchange_laneSettings (s : State) (l : LaneId) (h : Header) :
    (s.beginExchange l h).laneSettings = s.laneSettings := rfl
@[simp] theorem beginExchange_engines (s : State) (l : LaneId) (h : Header) :
    (s.beginExchange l h).engines = s.engines := rfl
@[simp] theorem beginExchange_lastServed (s : State) (l : LaneId) (h : Header) :
    (s.beginExchange l h).lastServed = s.lastServed := rfl
@[simp] theorem beginExchange_locks (s : State) (l : LaneId) (h : Header) :
    (s.beginExchange l h).locks = s.locks := rfl
@[simp] theorem beginExchange_tariff (s : State) (l : LaneId) (h : Header) :
    (s.beginExchange l h).tariff = s.tariff := rfl
@[simp] theorem beginExchange_slots (s : State) (l : LaneId) (h : Header) :
    (s.beginExchange l h).slots = s.slots := rfl
@[simp] theorem beginExchange_cipher (s : State) (l : LaneId) (h : Header) :
    (s.beginExchange l h).cipher = s.cipher := rfl
@[simp] theorem beginExchange_grantKey (s : State) (l : LaneId) (h : Header) :
    (s.beginExchange l h).grantKey = s.grantKey := rfl
@[simp] theorem beginExchange_authority (s : State) (l : LaneId) (h : Header) :
    (s.beginExchange l h).authority = s.authority := rfl
@[simp] theorem beginExchange_store (s : State) (l : LaneId) (h : Header) :
    (s.beginExchange l h).store = s.store := rfl
@[simp] theorem beginExchange_memory (s : State) (l : LaneId) (h : Header) :
    (s.beginExchange l h).memory = s.memory := rfl

/-! ### releaseLock -/

@[simp] theorem releaseLock_pending (s : State) (e : EngineId) : (s.releaseLock e).pending = s.pending := rfl
@[simp] theorem releaseLock_mainsOk (s : State) (e : EngineId) : (s.releaseLock e).mainsOk = s.mainsOk := rfl
@[simp] theorem releaseLock_pwrWarn (s : State) (e : EngineId) : (s.releaseLock e).pwrWarn = s.pwrWarn := rfl
@[simp] theorem releaseLock_resetHeld (s : State) (e : EngineId) : (s.releaseLock e).resetHeld = s.resetHeld := rfl
@[simp] theorem releaseLock_supply (s : State) (e : EngineId) : (s.releaseLock e).supply = s.supply := rfl
@[simp] theorem releaseLock_office (s : State) (e : EngineId) : (s.releaseLock e).office = s.office := rfl
@[simp] theorem releaseLock_faultRecord (s : State) (e : EngineId) :
    (s.releaseLock e).faultRecord = s.faultRecord := rfl
@[simp] theorem releaseLock_exchange (s : State) (e : EngineId) : (s.releaseLock e).exchange = s.exchange := rfl
@[simp] theorem releaseLock_events (s : State) (e : EngineId) : (s.releaseLock e).events = s.events := rfl
@[simp] theorem releaseLock_settings (s : State) (e : EngineId) : (s.releaseLock e).settings = s.settings := rfl
@[simp] theorem releaseLock_lanes (s : State) (e : EngineId) : (s.releaseLock e).lanes = s.lanes := rfl
@[simp] theorem releaseLock_laneSettings (s : State) (e : EngineId) :
    (s.releaseLock e).laneSettings = s.laneSettings := rfl
@[simp] theorem releaseLock_engines (s : State) (e : EngineId) : (s.releaseLock e).engines = s.engines := rfl
@[simp] theorem releaseLock_lastServed (s : State) (e : EngineId) :
    (s.releaseLock e).lastServed = s.lastServed := rfl
@[simp] theorem releaseLock_locks (s : State) (e : EngineId) :
    (s.releaseLock e).locks = { s.locks with engines := s.locks.engines.set e none } := rfl
@[simp] theorem releaseLock_tariff (s : State) (e : EngineId) : (s.releaseLock e).tariff = s.tariff := rfl
@[simp] theorem releaseLock_slots (s : State) (e : EngineId) : (s.releaseLock e).slots = s.slots := rfl
@[simp] theorem releaseLock_cipher (s : State) (e : EngineId) : (s.releaseLock e).cipher = s.cipher := rfl
@[simp] theorem releaseLock_grantKey (s : State) (e : EngineId) : (s.releaseLock e).grantKey = s.grantKey := rfl
@[simp] theorem releaseLock_authority (s : State) (e : EngineId) : (s.releaseLock e).authority = s.authority := rfl
@[simp] theorem releaseLock_store (s : State) (e : EngineId) : (s.releaseLock e).store = s.store := rfl
@[simp] theorem releaseLock_memory (s : State) (e : EngineId) : (s.releaseLock e).memory = s.memory := rfl

/-! ### requestCipher -/

@[simp] theorem requestCipher_pending (s : State) (r : CipherRequest) :
    (s.requestCipher r).pending = s.pending := rfl
@[simp] theorem requestCipher_mainsOk (s : State) (r : CipherRequest) :
    (s.requestCipher r).mainsOk = s.mainsOk := rfl
@[simp] theorem requestCipher_pwrWarn (s : State) (r : CipherRequest) :
    (s.requestCipher r).pwrWarn = s.pwrWarn := rfl
@[simp] theorem requestCipher_resetHeld (s : State) (r : CipherRequest) :
    (s.requestCipher r).resetHeld = s.resetHeld := rfl
@[simp] theorem requestCipher_supply (s : State) (r : CipherRequest) : (s.requestCipher r).supply = s.supply := rfl
@[simp] theorem requestCipher_office (s : State) (r : CipherRequest) : (s.requestCipher r).office = s.office := rfl
@[simp] theorem requestCipher_faultRecord (s : State) (r : CipherRequest) :
    (s.requestCipher r).faultRecord = s.faultRecord := rfl
@[simp] theorem requestCipher_exchange (s : State) (r : CipherRequest) :
    (s.requestCipher r).exchange = s.exchange := rfl
@[simp] theorem requestCipher_events (s : State) (r : CipherRequest) : (s.requestCipher r).events = s.events := rfl
@[simp] theorem requestCipher_settings (s : State) (r : CipherRequest) :
    (s.requestCipher r).settings = s.settings := rfl
@[simp] theorem requestCipher_lanes (s : State) (r : CipherRequest) : (s.requestCipher r).lanes = s.lanes := rfl
@[simp] theorem requestCipher_laneSettings (s : State) (r : CipherRequest) :
    (s.requestCipher r).laneSettings = s.laneSettings := rfl
@[simp] theorem requestCipher_engines (s : State) (r : CipherRequest) :
    (s.requestCipher r).engines = s.engines := rfl
@[simp] theorem requestCipher_lastServed (s : State) (r : CipherRequest) :
    (s.requestCipher r).lastServed = s.lastServed := rfl
@[simp] theorem requestCipher_locks (s : State) (r : CipherRequest) : (s.requestCipher r).locks = s.locks := rfl
@[simp] theorem requestCipher_tariff (s : State) (r : CipherRequest) : (s.requestCipher r).tariff = s.tariff := rfl
@[simp] theorem requestCipher_slots (s : State) (r : CipherRequest) : (s.requestCipher r).slots = s.slots := rfl
@[simp] theorem requestCipher_cipher (s : State) (r : CipherRequest) :
    (s.requestCipher r).cipher = s.cipher.arrive [r] := rfl
@[simp] theorem requestCipher_grantKey (s : State) (r : CipherRequest) :
    (s.requestCipher r).grantKey = s.grantKey := rfl
@[simp] theorem requestCipher_authority (s : State) (r : CipherRequest) :
    (s.requestCipher r).authority = s.authority := rfl
@[simp] theorem requestCipher_store (s : State) (r : CipherRequest) : (s.requestCipher r).store = s.store := rfl
@[simp] theorem requestCipher_memory (s : State) (r : CipherRequest) : (s.requestCipher r).memory = s.memory := rfl

/-! ### completeCipher -/

@[simp] theorem completeCipher_pending (s : State) : (s.completeCipher).pending = s.pending := rfl
@[simp] theorem completeCipher_mainsOk (s : State) : (s.completeCipher).mainsOk = s.mainsOk := rfl
@[simp] theorem completeCipher_pwrWarn (s : State) : (s.completeCipher).pwrWarn = s.pwrWarn := rfl
@[simp] theorem completeCipher_resetHeld (s : State) : (s.completeCipher).resetHeld = s.resetHeld := rfl
@[simp] theorem completeCipher_supply (s : State) : (s.completeCipher).supply = s.supply := rfl
@[simp] theorem completeCipher_office (s : State) : (s.completeCipher).office = s.office := rfl
@[simp] theorem completeCipher_faultRecord (s : State) : (s.completeCipher).faultRecord = s.faultRecord := rfl
@[simp] theorem completeCipher_exchange (s : State) : (s.completeCipher).exchange = s.exchange := rfl
@[simp] theorem completeCipher_events (s : State) : (s.completeCipher).events = s.events := rfl
@[simp] theorem completeCipher_settings (s : State) : (s.completeCipher).settings = s.settings := rfl
@[simp] theorem completeCipher_lanes (s : State) : (s.completeCipher).lanes = s.lanes := rfl
@[simp] theorem completeCipher_laneSettings (s : State) : (s.completeCipher).laneSettings = s.laneSettings := rfl
@[simp] theorem completeCipher_engines (s : State) : (s.completeCipher).engines = s.engines := rfl
@[simp] theorem completeCipher_lastServed (s : State) : (s.completeCipher).lastServed = s.lastServed := rfl
@[simp] theorem completeCipher_locks (s : State) : (s.completeCipher).locks = s.locks := rfl
@[simp] theorem completeCipher_tariff (s : State) : (s.completeCipher).tariff = s.tariff := rfl
@[simp] theorem completeCipher_slots (s : State) : (s.completeCipher).slots = s.slots := rfl
@[simp] theorem completeCipher_cipher (s : State) : (s.completeCipher).cipher = s.cipher.complete := rfl
@[simp] theorem completeCipher_grantKey (s : State) : (s.completeCipher).grantKey = s.grantKey := rfl
@[simp] theorem completeCipher_authority (s : State) : (s.completeCipher).authority = s.authority := rfl
@[simp] theorem completeCipher_store (s : State) : (s.completeCipher).store = s.store := rfl
@[simp] theorem completeCipher_memory (s : State) : (s.completeCipher).memory = s.memory := rfl

/-! ### officeWritten -/

@[simp] theorem officeWritten_pending (s : State) : (s.officeWritten).pending = s.pending := rfl
@[simp] theorem officeWritten_mainsOk (s : State) : (s.officeWritten).mainsOk = s.mainsOk := rfl
@[simp] theorem officeWritten_pwrWarn (s : State) : (s.officeWritten).pwrWarn = s.pwrWarn := rfl
@[simp] theorem officeWritten_resetHeld (s : State) : (s.officeWritten).resetHeld = s.resetHeld := rfl
@[simp] theorem officeWritten_supply (s : State) : (s.officeWritten).supply = s.supply := rfl
@[simp] theorem officeWritten_office (s : State) : (s.officeWritten).office = s.office := rfl
@[simp] theorem officeWritten_faultRecord (s : State) : (s.officeWritten).faultRecord = s.faultRecord := rfl
@[simp] theorem officeWritten_exchange (s : State) : (s.officeWritten).exchange = s.exchange := rfl
@[simp] theorem officeWritten_events (s : State) : (s.officeWritten).events = s.events := rfl
@[simp] theorem officeWritten_settings (s : State) : (s.officeWritten).settings = s.settings := rfl
@[simp] theorem officeWritten_lanes (s : State) : (s.officeWritten).lanes = s.lanes := rfl
@[simp] theorem officeWritten_laneSettings (s : State) : (s.officeWritten).laneSettings = s.laneSettings := rfl
@[simp] theorem officeWritten_engines (s : State) : (s.officeWritten).engines = s.engines := rfl
@[simp] theorem officeWritten_lastServed (s : State) : (s.officeWritten).lastServed = s.lastServed := rfl
@[simp] theorem officeWritten_locks (s : State) : (s.officeWritten).locks = s.locks := rfl
@[simp] theorem officeWritten_tariff (s : State) : (s.officeWritten).tariff = s.tariff := rfl
@[simp] theorem officeWritten_slots (s : State) : (s.officeWritten).slots = s.slots := rfl
@[simp] theorem officeWritten_cipher (s : State) : (s.officeWritten).cipher = s.cipher := rfl
@[simp] theorem officeWritten_grantKey (s : State) : (s.officeWritten).grantKey = s.grantKey := rfl
@[simp] theorem officeWritten_authority (s : State) : (s.officeWritten).authority = s.authority := rfl
@[simp] theorem officeWritten_store (s : State) : (s.officeWritten).store = s.store := rfl
@[simp] theorem officeWritten_memory (s : State) :
    (s.officeWritten).memory = s.memory.writeOffice s.formedRow := rfl

/-! ### writeRecord -/

@[simp] theorem writeRecord_pending (s : State) (n : Nat) (r : MeterRecord) :
    (s.writeRecord n r).pending = s.pending := rfl
@[simp] theorem writeRecord_mainsOk (s : State) (n : Nat) (r : MeterRecord) :
    (s.writeRecord n r).mainsOk = s.mainsOk := rfl
@[simp] theorem writeRecord_pwrWarn (s : State) (n : Nat) (r : MeterRecord) :
    (s.writeRecord n r).pwrWarn = s.pwrWarn := rfl
@[simp] theorem writeRecord_resetHeld (s : State) (n : Nat) (r : MeterRecord) :
    (s.writeRecord n r).resetHeld = s.resetHeld := rfl
@[simp] theorem writeRecord_supply (s : State) (n : Nat) (r : MeterRecord) :
    (s.writeRecord n r).supply = s.supply := rfl
@[simp] theorem writeRecord_office (s : State) (n : Nat) (r : MeterRecord) :
    (s.writeRecord n r).office = s.office := rfl
@[simp] theorem writeRecord_faultRecord (s : State) (n : Nat) (r : MeterRecord) :
    (s.writeRecord n r).faultRecord = s.faultRecord := rfl
@[simp] theorem writeRecord_exchange (s : State) (n : Nat) (r : MeterRecord) :
    (s.writeRecord n r).exchange = s.exchange := rfl
@[simp] theorem writeRecord_events (s : State) (n : Nat) (r : MeterRecord) :
    (s.writeRecord n r).events = s.events := rfl
@[simp] theorem writeRecord_settings (s : State) (n : Nat) (r : MeterRecord) :
    (s.writeRecord n r).settings = s.settings := rfl
@[simp] theorem writeRecord_lanes (s : State) (n : Nat) (r : MeterRecord) :
    (s.writeRecord n r).lanes = s.lanes := rfl
@[simp] theorem writeRecord_laneSettings (s : State) (n : Nat) (r : MeterRecord) :
    (s.writeRecord n r).laneSettings = s.laneSettings := rfl
@[simp] theorem writeRecord_engines (s : State) (n : Nat) (r : MeterRecord) :
    (s.writeRecord n r).engines = s.engines := rfl
@[simp] theorem writeRecord_lastServed (s : State) (n : Nat) (r : MeterRecord) :
    (s.writeRecord n r).lastServed = s.lastServed := rfl
@[simp] theorem writeRecord_locks (s : State) (n : Nat) (r : MeterRecord) :
    (s.writeRecord n r).locks = s.locks := rfl
@[simp] theorem writeRecord_tariff (s : State) (n : Nat) (r : MeterRecord) :
    (s.writeRecord n r).tariff = s.tariff := rfl
@[simp] theorem writeRecord_slots (s : State) (n : Nat) (r : MeterRecord) :
    (s.writeRecord n r).slots = s.slots := rfl
@[simp] theorem writeRecord_cipher (s : State) (n : Nat) (r : MeterRecord) :
    (s.writeRecord n r).cipher = s.cipher := rfl
@[simp] theorem writeRecord_grantKey (s : State) (n : Nat) (r : MeterRecord) :
    (s.writeRecord n r).grantKey = s.grantKey := rfl
@[simp] theorem writeRecord_authority (s : State) (n : Nat) (r : MeterRecord) :
    (s.writeRecord n r).authority = s.authority := rfl
@[simp] theorem writeRecord_store (s : State) (n : Nat) (r : MeterRecord) :
    (s.writeRecord n r).store = s.store := rfl
@[simp] theorem writeRecord_memory (s : State) (n : Nat) (r : MeterRecord) :
    (s.writeRecord n r).memory = s.memory.writeRecord n r := rfl

/-! ### enterFault -/

@[simp] theorem enterFault_pending (s : State) (id : RowId) (b : Bool) :
    (s.enterFault id b).pending = s.pending := rfl
@[simp] theorem enterFault_mainsOk (s : State) (id : RowId) (b : Bool) :
    (s.enterFault id b).mainsOk = s.mainsOk := rfl
@[simp] theorem enterFault_pwrWarn (s : State) (id : RowId) (b : Bool) :
    (s.enterFault id b).pwrWarn = s.pwrWarn := rfl
@[simp] theorem enterFault_resetHeld (s : State) (id : RowId) (b : Bool) :
    (s.enterFault id b).resetHeld = s.resetHeld := rfl
@[simp] theorem enterFault_supply (s : State) (id : RowId) (b : Bool) :
    (s.enterFault id b).supply = s.supply := rfl
@[simp] theorem enterFault_office (s : State) (id : RowId) (b : Bool) : (s.enterFault id b).office = .fault := rfl
@[simp] theorem enterFault_faultRecord (s : State) (id : RowId) (b : Bool) :
    (s.enterFault id b).faultRecord = some ⟨id, b⟩ := rfl
@[simp] theorem enterFault_exchange (s : State) (id : RowId) (b : Bool) :
    (s.enterFault id b).exchange = s.exchange := rfl
@[simp] theorem enterFault_events (s : State) (id : RowId) (b : Bool) :
    (s.enterFault id b).events = s.events := rfl
@[simp] theorem enterFault_settings (s : State) (id : RowId) (b : Bool) :
    (s.enterFault id b).settings = s.settings := rfl
@[simp] theorem enterFault_lanes (s : State) (id : RowId) (b : Bool) : (s.enterFault id b).lanes = s.lanes := rfl
@[simp] theorem enterFault_laneSettings (s : State) (id : RowId) (b : Bool) :
    (s.enterFault id b).laneSettings = s.laneSettings := rfl
@[simp] theorem enterFault_engines (s : State) (id : RowId) (b : Bool) :
    (s.enterFault id b).engines = s.engines := rfl
@[simp] theorem enterFault_lastServed (s : State) (id : RowId) (b : Bool) :
    (s.enterFault id b).lastServed = s.lastServed := rfl
@[simp] theorem enterFault_locks (s : State) (id : RowId) (b : Bool) : (s.enterFault id b).locks = s.locks := rfl
@[simp] theorem enterFault_tariff (s : State) (id : RowId) (b : Bool) :
    (s.enterFault id b).tariff = s.tariff := rfl
@[simp] theorem enterFault_slots (s : State) (id : RowId) (b : Bool) : (s.enterFault id b).slots = s.slots := rfl
@[simp] theorem enterFault_cipher (s : State) (id : RowId) (b : Bool) :
    (s.enterFault id b).cipher = s.cipher := rfl
@[simp] theorem enterFault_grantKey (s : State) (id : RowId) (b : Bool) :
    (s.enterFault id b).grantKey = s.grantKey := rfl
@[simp] theorem enterFault_authority (s : State) (id : RowId) (b : Bool) :
    (s.enterFault id b).authority = s.authority := rfl
@[simp] theorem enterFault_store (s : State) (id : RowId) (b : Bool) : (s.enterFault id b).store = s.store := rfl
@[simp] theorem enterFault_memory (s : State) (id : RowId) (b : Bool) :
    (s.enterFault id b).memory = s.memory := rfl

/-! ### setOverdue -/

@[simp] theorem setOverdue_pending (s : State) : (s.setOverdue).pending = s.pending := rfl
@[simp] theorem setOverdue_mainsOk (s : State) : (s.setOverdue).mainsOk = s.mainsOk := rfl
@[simp] theorem setOverdue_pwrWarn (s : State) : (s.setOverdue).pwrWarn = s.pwrWarn := rfl
@[simp] theorem setOverdue_resetHeld (s : State) : (s.setOverdue).resetHeld = s.resetHeld := rfl
@[simp] theorem setOverdue_supply (s : State) : (s.setOverdue).supply = s.supply := rfl
@[simp] theorem setOverdue_office (s : State) : (s.setOverdue).office = s.office := rfl
@[simp] theorem setOverdue_faultRecord (s : State) : (s.setOverdue).faultRecord = s.faultRecord := rfl
@[simp] theorem setOverdue_exchange (s : State) : (s.setOverdue).exchange = s.exchange := rfl
@[simp] theorem setOverdue_events (s : State) : (s.setOverdue).events = { s.events with dayOverdue := true } := rfl
@[simp] theorem setOverdue_settings (s : State) : (s.setOverdue).settings = s.settings := rfl
@[simp] theorem setOverdue_lanes (s : State) : (s.setOverdue).lanes = s.lanes := rfl
@[simp] theorem setOverdue_laneSettings (s : State) : (s.setOverdue).laneSettings = s.laneSettings := rfl
@[simp] theorem setOverdue_engines (s : State) : (s.setOverdue).engines = s.engines := rfl
@[simp] theorem setOverdue_lastServed (s : State) : (s.setOverdue).lastServed = s.lastServed := rfl
@[simp] theorem setOverdue_locks (s : State) : (s.setOverdue).locks = s.locks := rfl
@[simp] theorem setOverdue_tariff (s : State) : (s.setOverdue).tariff = s.tariff := rfl
@[simp] theorem setOverdue_slots (s : State) : (s.setOverdue).slots = s.slots := rfl
@[simp] theorem setOverdue_cipher (s : State) : (s.setOverdue).cipher = s.cipher := rfl
@[simp] theorem setOverdue_grantKey (s : State) : (s.setOverdue).grantKey = s.grantKey := rfl
@[simp] theorem setOverdue_authority (s : State) :
    (s.setOverdue).authority = { s.authority with overdue := true } := rfl
@[simp] theorem setOverdue_store (s : State) : (s.setOverdue).store = s.store := rfl
@[simp] theorem setOverdue_memory (s : State) : (s.setOverdue).memory = s.memory := rfl

/-! ### advanceScrubber -/

@[simp] theorem advanceScrubber_pending (s : State) : (s.advanceScrubber).pending = s.pending := rfl
@[simp] theorem advanceScrubber_mainsOk (s : State) : (s.advanceScrubber).mainsOk = s.mainsOk := rfl
@[simp] theorem advanceScrubber_pwrWarn (s : State) : (s.advanceScrubber).pwrWarn = s.pwrWarn := rfl
@[simp] theorem advanceScrubber_resetHeld (s : State) : (s.advanceScrubber).resetHeld = s.resetHeld := rfl
@[simp] theorem advanceScrubber_supply (s : State) : (s.advanceScrubber).supply = s.supply := rfl
@[simp] theorem advanceScrubber_office (s : State) : (s.advanceScrubber).office = s.office := rfl
@[simp] theorem advanceScrubber_faultRecord (s : State) : (s.advanceScrubber).faultRecord = s.faultRecord := rfl
@[simp] theorem advanceScrubber_exchange (s : State) : (s.advanceScrubber).exchange = s.exchange := rfl
@[simp] theorem advanceScrubber_events (s : State) : (s.advanceScrubber).events = s.events := rfl
@[simp] theorem advanceScrubber_settings (s : State) : (s.advanceScrubber).settings = s.settings := rfl
@[simp] theorem advanceScrubber_lanes (s : State) : (s.advanceScrubber).lanes = s.lanes := rfl
@[simp] theorem advanceScrubber_laneSettings (s : State) : (s.advanceScrubber).laneSettings = s.laneSettings := rfl
@[simp] theorem advanceScrubber_engines (s : State) : (s.advanceScrubber).engines = s.engines := rfl
@[simp] theorem advanceScrubber_lastServed (s : State) : (s.advanceScrubber).lastServed = s.lastServed := rfl
@[simp] theorem advanceScrubber_locks (s : State) : (s.advanceScrubber).locks = s.locks := rfl
@[simp] theorem advanceScrubber_tariff (s : State) : (s.advanceScrubber).tariff = s.tariff := rfl
@[simp] theorem advanceScrubber_slots (s : State) : (s.advanceScrubber).slots = s.slots := rfl
@[simp] theorem advanceScrubber_cipher (s : State) : (s.advanceScrubber).cipher = s.cipher := rfl
@[simp] theorem advanceScrubber_grantKey (s : State) : (s.advanceScrubber).grantKey = s.grantKey := rfl
@[simp] theorem advanceScrubber_authority (s : State) : (s.advanceScrubber).authority = s.authority := rfl
@[simp] theorem advanceScrubber_store (s : State) :
    (s.advanceScrubber).store = { s.store with scrubber := s.store.scrubber.advance } := rfl
@[simp] theorem advanceScrubber_memory (s : State) : (s.advanceScrubber).memory = s.memory := rfl

/-! ### settleTariff -/

@[simp] theorem settleTariff_pending (s : State) : (s.settleTariff).pending = s.pending := rfl
@[simp] theorem settleTariff_mainsOk (s : State) : (s.settleTariff).mainsOk = s.mainsOk := rfl
@[simp] theorem settleTariff_pwrWarn (s : State) : (s.settleTariff).pwrWarn = s.pwrWarn := rfl
@[simp] theorem settleTariff_resetHeld (s : State) : (s.settleTariff).resetHeld = s.resetHeld := rfl
@[simp] theorem settleTariff_supply (s : State) : (s.settleTariff).supply = s.supply := rfl
@[simp] theorem settleTariff_office (s : State) : (s.settleTariff).office = s.office := rfl
@[simp] theorem settleTariff_faultRecord (s : State) : (s.settleTariff).faultRecord = s.faultRecord := rfl
@[simp] theorem settleTariff_exchange (s : State) : (s.settleTariff).exchange = s.exchange := rfl
@[simp] theorem settleTariff_events (s : State) : (s.settleTariff).events = s.events := rfl
@[simp] theorem settleTariff_settings (s : State) : (s.settleTariff).settings = s.settings := rfl
@[simp] theorem settleTariff_lanes (s : State) : (s.settleTariff).lanes = s.lanes := rfl
@[simp] theorem settleTariff_laneSettings (s : State) : (s.settleTariff).laneSettings = s.laneSettings := rfl
@[simp] theorem settleTariff_engines (s : State) : (s.settleTariff).engines = s.engines := rfl
@[simp] theorem settleTariff_lastServed (s : State) : (s.settleTariff).lastServed = s.lastServed := rfl
@[simp] theorem settleTariff_locks (s : State) : (s.settleTariff).locks = s.locks := rfl
@[simp] theorem settleTariff_tariff (s : State) : (s.settleTariff).tariff = s.tariff.settle := rfl
@[simp] theorem settleTariff_slots (s : State) : (s.settleTariff).slots = s.slots := rfl
@[simp] theorem settleTariff_cipher (s : State) : (s.settleTariff).cipher = s.cipher := rfl
@[simp] theorem settleTariff_grantKey (s : State) : (s.settleTariff).grantKey = s.grantKey := rfl
@[simp] theorem settleTariff_authority (s : State) : (s.settleTariff).authority = s.authority := rfl
@[simp] theorem settleTariff_store (s : State) : (s.settleTariff).store = s.store := rfl
@[simp] theorem settleTariff_memory (s : State) : (s.settleTariff).memory = s.memory := rfl

/-! ### Reading a lane, an engine, a slot after an update -/

@[simp] theorem setLane_lane (s : State) (l : LaneId) (x : Lane) : (s.setLane l x).lane l = x := by
  simp [State.setLane, State.lane]

theorem setLane_lane_other (s : State) (l k : LaneId) (x : Lane) (h : k ≠ l) : (s.setLane l x).lane k = s.lane k := by
  have : l.val ≠ k.val := fun e => h (Fin.ext e.symm)
  simp [State.setLane, State.lane, this]

@[simp] theorem updateLane_lane (s : State) (l : LaneId) (f : Lane → Lane) : (s.updateLane l f).lane l = f (s.lane l) := by
  simp [State.updateLane]

theorem updateLane_lane_other (s : State) (l k : LaneId) (f : Lane → Lane) (h : k ≠ l) :
    (s.updateLane l f).lane k = s.lane k :=
  setLane_lane_other s l k _ h

@[simp] theorem setLane_settingsOf (s : State) (l k : LaneId) (x : Lane) : (s.setLane l x).settingsOf k = s.settingsOf k :=
  rfl

@[simp] theorem setLane_setLane (s : State) (l : LaneId) (x y : Lane) : (s.setLane l x).setLane l y = s.setLane l y := by
  simp [State.setLane]

@[simp] theorem setEngine_busyEngine (s : State) (e : EngineId) (b : BusyEngine) :
    (s.setEngine e (.busy b)).busyEngine e = some b := by
  simp [State.setEngine, State.busyEngine]

theorem setEngine_busyEngine_other (s : State) (e f : EngineId) (x : Engine) (h : f ≠ e) :
    (s.setEngine e x).busyEngine f = s.busyEngine f := by
  simp [State.setEngine, State.busyEngine, Pair.get_set_other _ _ _ _ h]

/-- A lane's context depends on the lanes alone. -/
theorem lane_of_lanes {s t : State} (h : t.lanes = s.lanes) (l : LaneId) : t.lane l = s.lane l := by
  simp [State.lane, h]

/-- What an engine holds depends on the engines alone. -/
theorem busyEngine_of_engines {s t : State} (h : t.engines = s.engines) (e : EngineId) :
    t.busyEngine e = s.busyEngine e := by
  simp [State.busyEngine, h]

@[simp] theorem setEngine_lane (s : State) (e : EngineId) (x : Engine) (l : LaneId) :
    (s.setEngine e x).lane l = s.lane l := rfl

@[simp] theorem setLane_busyEngine (s : State) (l : LaneId) (x : Lane) (e : EngineId) :
    (s.setLane l x).busyEngine e = s.busyEngine e := rfl

@[simp] theorem updateLane_busyEngine (s : State) (l : LaneId) (f : Lane → Lane) (e : EngineId) :
    (s.updateLane l f).busyEngine e = s.busyEngine e := rfl

/-- An engine that rests after its request holds nothing. -/
theorem setEngine_resting_busyEngine (s : State) (e : EngineId) (p : Supply) :
    (s.setEngine e (restingEngine e p)).busyEngine e = none := by
  unfold restingEngine
  split <;> simp [State.setEngine, State.busyEngine]

end Sys2Proof.Machine
end

