-- ==== Sys2Proof/Laws/Frames.lean ====
section
/-! SUPPORT. The frames of the shared operations: for each, one lemma that says which fields of the state it can change,
and from it one lemma for each field it cannot. -/

namespace Sys2Proof.Machine

open Sys2Proof

/-! ### raiseCount -/

theorem raiseCount_frame (s : State) (l : LaneId) (n : Nat) :
    s.raiseCount l n = { s with events := (s.raiseCount l n).events, lanes := (s.raiseCount l n).lanes } := by
  unfold State.raiseCount; dsimp only; split <;> rfl

@[simp] theorem raiseCount_pending (s : State) (l : LaneId) (n : Nat) : (s.raiseCount l n).pending = s.pending :=
  (congrArg State.pending (raiseCount_frame s l n) :)
@[simp] theorem raiseCount_mainsOk (s : State) (l : LaneId) (n : Nat) : (s.raiseCount l n).mainsOk = s.mainsOk :=
  (congrArg State.mainsOk (raiseCount_frame s l n) :)
@[simp] theorem raiseCount_pwrWarn (s : State) (l : LaneId) (n : Nat) : (s.raiseCount l n).pwrWarn = s.pwrWarn :=
  (congrArg State.pwrWarn (raiseCount_frame s l n) :)
@[simp] theorem raiseCount_resetHeld (s : State) (l : LaneId) (n : Nat) : (s.raiseCount l n).resetHeld = s.resetHeld :=
  (congrArg State.resetHeld (raiseCount_frame s l n) :)
@[simp] theorem raiseCount_supply (s : State) (l : LaneId) (n : Nat) : (s.raiseCount l n).supply = s.supply :=
  (congrArg State.supply (raiseCount_frame s l n) :)
@[simp] theorem raiseCount_office (s : State) (l : LaneId) (n : Nat) : (s.raiseCount l n).office = s.office :=
  (congrArg State.office (raiseCount_frame s l n) :)
@[simp] theorem raiseCount_faultRecord (s : State) (l : LaneId) (n : Nat) : (s.raiseCount l n).faultRecord = s.faultRecord :=
  (congrArg State.faultRecord (raiseCount_frame s l n) :)
@[simp] theorem raiseCount_exchange (s : State) (l : LaneId) (n : Nat) : (s.raiseCount l n).exchange = s.exchange :=
  (congrArg State.exchange (raiseCount_frame s l n) :)
@[simp] theorem raiseCount_settings (s : State) (l : LaneId) (n : Nat) : (s.raiseCount l n).settings = s.settings :=
  (congrArg State.settings (raiseCount_frame s l n) :)
@[simp] theorem raiseCount_laneSettings (s : State) (l : LaneId) (n : Nat) : (s.raiseCount l n).laneSettings = s.laneSettings :=
  (congrArg State.laneSettings (raiseCount_frame s l n) :)
@[simp] theorem raiseCount_engines (s : State) (l : LaneId) (n : Nat) : (s.raiseCount l n).engines = s.engines :=
  (congrArg State.engines (raiseCount_frame s l n) :)
@[simp] theorem raiseCount_lastServed (s : State) (l : LaneId) (n : Nat) : (s.raiseCount l n).lastServed = s.lastServed :=
  (congrArg State.lastServed (raiseCount_frame s l n) :)
@[simp] theorem raiseCount_locks (s : State) (l : LaneId) (n : Nat) : (s.raiseCount l n).locks = s.locks :=
  (congrArg State.locks (raiseCount_frame s l n) :)
@[simp] theorem raiseCount_tariff (s : State) (l : LaneId) (n : Nat) : (s.raiseCount l n).tariff = s.tariff :=
  (congrArg State.tariff (raiseCount_frame s l n) :)
@[simp] theorem raiseCount_slots (s : State) (l : LaneId) (n : Nat) : (s.raiseCount l n).slots = s.slots :=
  (congrArg State.slots (raiseCount_frame s l n) :)
@[simp] theorem raiseCount_cipher (s : State) (l : LaneId) (n : Nat) : (s.raiseCount l n).cipher = s.cipher :=
  (congrArg State.cipher (raiseCount_frame s l n) :)
@[simp] theorem raiseCount_grantKey (s : State) (l : LaneId) (n : Nat) : (s.raiseCount l n).grantKey = s.grantKey :=
  (congrArg State.grantKey (raiseCount_frame s l n) :)
@[simp] theorem raiseCount_authority (s : State) (l : LaneId) (n : Nat) : (s.raiseCount l n).authority = s.authority :=
  (congrArg State.authority (raiseCount_frame s l n) :)
@[simp] theorem raiseCount_store (s : State) (l : LaneId) (n : Nat) : (s.raiseCount l n).store = s.store :=
  (congrArg State.store (raiseCount_frame s l n) :)
@[simp] theorem raiseCount_memory (s : State) (l : LaneId) (n : Nat) : (s.raiseCount l n).memory = s.memory :=
  (congrArg State.memory (raiseCount_frame s l n) :)

/-! ### respond -/

theorem respond_frame (s : State) (c : ResultCode) (b : ReplyBody) :
    s.respond c b = { s with exchange := (s.respond c b).exchange, events := (s.respond c b).events, lanes := (s.respond c b).lanes } := by
  unfold State.respond
  split
  · dsimp only
    split
    · rfl
    · rw [raiseCount_frame]
  · rfl

@[simp] theorem respond_pending (s : State) (c : ResultCode) (b : ReplyBody) : (s.respond c b).pending = s.pending :=
  (congrArg State.pending (respond_frame s c b) :)
@[simp] theorem respond_mainsOk (s : State) (c : ResultCode) (b : ReplyBody) : (s.respond c b).mainsOk = s.mainsOk :=
  (congrArg State.mainsOk (respond_frame s c b) :)
@[simp] theorem respond_pwrWarn (s : State) (c : ResultCode) (b : ReplyBody) : (s.respond c b).pwrWarn = s.pwrWarn :=
  (congrArg State.pwrWarn (respond_frame s c b) :)
@[simp] theorem respond_resetHeld (s : State) (c : ResultCode) (b : ReplyBody) : (s.respond c b).resetHeld = s.resetHeld :=
  (congrArg State.resetHeld (respond_frame s c b) :)
@[simp] theorem respond_supply (s : State) (c : ResultCode) (b : ReplyBody) : (s.respond c b).supply = s.supply :=
  (congrArg State.supply (respond_frame s c b) :)
@[simp] theorem respond_office (s : State) (c : ResultCode) (b : ReplyBody) : (s.respond c b).office = s.office :=
  (congrArg State.office (respond_frame s c b) :)
@[simp] theorem respond_faultRecord (s : State) (c : ResultCode) (b : ReplyBody) : (s.respond c b).faultRecord = s.faultRecord :=
  (congrArg State.faultRecord (respond_frame s c b) :)
@[simp] theorem respond_settings (s : State) (c : ResultCode) (b : ReplyBody) : (s.respond c b).settings = s.settings :=
  (congrArg State.settings (respond_frame s c b) :)
@[simp] theorem respond_laneSettings (s : State) (c : ResultCode) (b : ReplyBody) : (s.respond c b).laneSettings = s.laneSettings :=
  (congrArg State.laneSettings (respond_frame s c b) :)
@[simp] theorem respond_engines (s : State) (c : ResultCode) (b : ReplyBody) : (s.respond c b).engines = s.engines :=
  (congrArg State.engines (respond_frame s c b) :)
@[simp] theorem respond_lastServed (s : State) (c : ResultCode) (b : ReplyBody) : (s.respond c b).lastServed = s.lastServed :=
  (congrArg State.lastServed (respond_frame s c b) :)
@[simp] theorem respond_locks (s : State) (c : ResultCode) (b : ReplyBody) : (s.respond c b).locks = s.locks :=
  (congrArg State.locks (respond_frame s c b) :)
@[simp] theorem respond_tariff (s : State) (c : ResultCode) (b : ReplyBody) : (s.respond c b).tariff = s.tariff :=
  (congrArg State.tariff (respond_frame s c b) :)
@[simp] theorem respond_slots (s : State) (c : ResultCode) (b : ReplyBody) : (s.respond c b).slots = s.slots :=
  (congrArg State.slots (respond_frame s c b) :)
@[simp] theorem respond_cipher (s : State) (c : ResultCode) (b : ReplyBody) : (s.respond c b).cipher = s.cipher :=
  (congrArg State.cipher (respond_frame s c b) :)
@[simp] theorem respond_grantKey (s : State) (c : ResultCode) (b : ReplyBody) : (s.respond c b).grantKey = s.grantKey :=
  (congrArg State.grantKey (respond_frame s c b) :)
@[simp] theorem respond_authority (s : State) (c : ResultCode) (b : ReplyBody) : (s.respond c b).authority = s.authority :=
  (congrArg State.authority (respond_frame s c b) :)
@[simp] theorem respond_store (s : State) (c : ResultCode) (b : ReplyBody) : (s.respond c b).store = s.store :=
  (congrArg State.store (respond_frame s c b) :)
@[simp] theorem respond_memory (s : State) (c : ResultCode) (b : ReplyBody) : (s.respond c b).memory = s.memory :=
  (congrArg State.memory (respond_frame s c b) :)

/-! ### answer -/

theorem answer_frame (s : State) (c : ResultCode) :
    s.answer c = { s with exchange := (s.answer c).exchange, events := (s.answer c).events, lanes := (s.answer c).lanes } := respond_frame s c .empty

@[simp] theorem answer_pending (s : State) (c : ResultCode) : (s.answer c).pending = s.pending :=
  (congrArg State.pending (answer_frame s c) :)
@[simp] theorem answer_mainsOk (s : State) (c : ResultCode) : (s.answer c).mainsOk = s.mainsOk :=
  (congrArg State.mainsOk (answer_frame s c) :)
@[simp] theorem answer_pwrWarn (s : State) (c : ResultCode) : (s.answer c).pwrWarn = s.pwrWarn :=
  (congrArg State.pwrWarn (answer_frame s c) :)
@[simp] theorem answer_resetHeld (s : State) (c : ResultCode) : (s.answer c).resetHeld = s.resetHeld :=
  (congrArg State.resetHeld (answer_frame s c) :)
@[simp] theorem answer_supply (s : State) (c : ResultCode) : (s.answer c).supply = s.supply :=
  (congrArg State.supply (answer_frame s c) :)
@[simp] theorem answer_office (s : State) (c : ResultCode) : (s.answer c).office = s.office :=
  (congrArg State.office (answer_frame s c) :)
@[simp] theorem answer_faultRecord (s : State) (c : ResultCode) : (s.answer c).faultRecord = s.faultRecord :=
  (congrArg State.faultRecord (answer_frame s c) :)
@[simp] theorem answer_settings (s : State) (c : ResultCode) : (s.answer c).settings = s.settings :=
  (congrArg State.settings (answer_frame s c) :)
@[simp] theorem answer_laneSettings (s : State) (c : ResultCode) : (s.answer c).laneSettings = s.laneSettings :=
  (congrArg State.laneSettings (answer_frame s c) :)
@[simp] theorem answer_engines (s : State) (c : ResultCode) : (s.answer c).engines = s.engines :=
  (congrArg State.engines (answer_frame s c) :)
@[simp] theorem answer_lastServed (s : State) (c : ResultCode) : (s.answer c).lastServed = s.lastServed :=
  (congrArg State.lastServed (answer_frame s c) :)
@[simp] theorem answer_locks (s : State) (c : ResultCode) : (s.answer c).locks = s.locks :=
  (congrArg State.locks (answer_frame s c) :)
@[simp] theorem answer_tariff (s : State) (c : ResultCode) : (s.answer c).tariff = s.tariff :=
  (congrArg State.tariff (answer_frame s c) :)
@[simp] theorem answer_slots (s : State) (c : ResultCode) : (s.answer c).slots = s.slots :=
  (congrArg State.slots (answer_frame s c) :)
@[simp] theorem answer_cipher (s : State) (c : ResultCode) : (s.answer c).cipher = s.cipher :=
  (congrArg State.cipher (answer_frame s c) :)
@[simp] theorem answer_grantKey (s : State) (c : ResultCode) : (s.answer c).grantKey = s.grantKey :=
  (congrArg State.grantKey (answer_frame s c) :)
@[simp] theorem answer_authority (s : State) (c : ResultCode) : (s.answer c).authority = s.authority :=
  (congrArg State.authority (answer_frame s c) :)
@[simp] theorem answer_store (s : State) (c : ResultCode) : (s.answer c).store = s.store :=
  (congrArg State.store (answer_frame s c) :)
@[simp] theorem answer_memory (s : State) (c : ResultCode) : (s.answer c).memory = s.memory :=
  (congrArg State.memory (answer_frame s c) :)

/-! ### markDamaged -/

theorem markDamaged_frame (s : State) (n : Nat) :
    s.markDamaged n = { s with events := (s.markDamaged n).events, store := (s.markDamaged n).store } := by
  unfold State.markDamaged; split <;> rfl

@[simp] theorem markDamaged_pending (s : State) (n : Nat) : (s.markDamaged n).pending = s.pending :=
  (congrArg State.pending (markDamaged_frame s n) :)
@[simp] theorem markDamaged_mainsOk (s : State) (n : Nat) : (s.markDamaged n).mainsOk = s.mainsOk :=
  (congrArg State.mainsOk (markDamaged_frame s n) :)
@[simp] theorem markDamaged_pwrWarn (s : State) (n : Nat) : (s.markDamaged n).pwrWarn = s.pwrWarn :=
  (congrArg State.pwrWarn (markDamaged_frame s n) :)
@[simp] theorem markDamaged_resetHeld (s : State) (n : Nat) : (s.markDamaged n).resetHeld = s.resetHeld :=
  (congrArg State.resetHeld (markDamaged_frame s n) :)
@[simp] theorem markDamaged_supply (s : State) (n : Nat) : (s.markDamaged n).supply = s.supply :=
  (congrArg State.supply (markDamaged_frame s n) :)
@[simp] theorem markDamaged_office (s : State) (n : Nat) : (s.markDamaged n).office = s.office :=
  (congrArg State.office (markDamaged_frame s n) :)
@[simp] theorem markDamaged_faultRecord (s : State) (n : Nat) : (s.markDamaged n).faultRecord = s.faultRecord :=
  (congrArg State.faultRecord (markDamaged_frame s n) :)
@[simp] theorem markDamaged_exchange (s : State) (n : Nat) : (s.markDamaged n).exchange = s.exchange :=
  (congrArg State.exchange (markDamaged_frame s n) :)
@[simp] theorem markDamaged_settings (s : State) (n : Nat) : (s.markDamaged n).settings = s.settings :=
  (congrArg State.settings (markDamaged_frame s n) :)
@[simp] theorem markDamaged_lanes (s : State) (n : Nat) : (s.markDamaged n).lanes = s.lanes :=
  (congrArg State.lanes (markDamaged_frame s n) :)
@[simp] theorem markDamaged_laneSettings (s : State) (n : Nat) : (s.markDamaged n).laneSettings = s.laneSettings :=
  (congrArg State.laneSettings (markDamaged_frame s n) :)
@[simp] theorem markDamaged_engines (s : State) (n : Nat) : (s.markDamaged n).engines = s.engines :=
  (congrArg State.engines (markDamaged_frame s n) :)
@[simp] theorem markDamaged_lastServed (s : State) (n : Nat) : (s.markDamaged n).lastServed = s.lastServed :=
  (congrArg State.lastServed (markDamaged_frame s n) :)
@[simp] theorem markDamaged_locks (s : State) (n : Nat) : (s.markDamaged n).locks = s.locks :=
  (congrArg State.locks (markDamaged_frame s n) :)
@[simp] theorem markDamaged_tariff (s : State) (n : Nat) : (s.markDamaged n).tariff = s.tariff :=
  (congrArg State.tariff (markDamaged_frame s n) :)
@[simp] theorem markDamaged_slots (s : State) (n : Nat) : (s.markDamaged n).slots = s.slots :=
  (congrArg State.slots (markDamaged_frame s n) :)
@[simp] theorem markDamaged_cipher (s : State) (n : Nat) : (s.markDamaged n).cipher = s.cipher :=
  (congrArg State.cipher (markDamaged_frame s n) :)
@[simp] theorem markDamaged_grantKey (s : State) (n : Nat) : (s.markDamaged n).grantKey = s.grantKey :=
  (congrArg State.grantKey (markDamaged_frame s n) :)
@[simp] theorem markDamaged_authority (s : State) (n : Nat) : (s.markDamaged n).authority = s.authority :=
  (congrArg State.authority (markDamaged_frame s n) :)
@[simp] theorem markDamaged_memory (s : State) (n : Nat) : (s.markDamaged n).memory = s.memory :=
  (congrArg State.memory (markDamaged_frame s n) :)

/-! ### makeOrphan -/

theorem makeOrphan_frame (s : State) (n : Nat) :
    s.makeOrphan n = { s with events := (s.makeOrphan n).events, store := (s.makeOrphan n).store } := rfl

@[simp] theorem makeOrphan_pending (s : State) (n : Nat) : (s.makeOrphan n).pending = s.pending :=
  (congrArg State.pending (makeOrphan_frame s n) :)
@[simp] theorem makeOrphan_mainsOk (s : State) (n : Nat) : (s.makeOrphan n).mainsOk = s.mainsOk :=
  (congrArg State.mainsOk (makeOrphan_frame s n) :)
@[simp] theorem makeOrphan_pwrWarn (s : State) (n : Nat) : (s.makeOrphan n).pwrWarn = s.pwrWarn :=
  (congrArg State.pwrWarn (makeOrphan_frame s n) :)
@[simp] theorem makeOrphan_resetHeld (s : State) (n : Nat) : (s.makeOrphan n).resetHeld = s.resetHeld :=
  (congrArg State.resetHeld (makeOrphan_frame s n) :)
@[simp] theorem makeOrphan_supply (s : State) (n : Nat) : (s.makeOrphan n).supply = s.supply :=
  (congrArg State.supply (makeOrphan_frame s n) :)
@[simp] theorem makeOrphan_office (s : State) (n : Nat) : (s.makeOrphan n).office = s.office :=
  (congrArg State.office (makeOrphan_frame s n) :)
@[simp] theorem makeOrphan_faultRecord (s : State) (n : Nat) : (s.makeOrphan n).faultRecord = s.faultRecord :=
  (congrArg State.faultRecord (makeOrphan_frame s n) :)
@[simp] theorem makeOrphan_exchange (s : State) (n : Nat) : (s.makeOrphan n).exchange = s.exchange :=
  (congrArg State.exchange (makeOrphan_frame s n) :)
@[simp] theorem makeOrphan_settings (s : State) (n : Nat) : (s.makeOrphan n).settings = s.settings :=
  (congrArg State.settings (makeOrphan_frame s n) :)
@[simp] theorem makeOrphan_lanes (s : State) (n : Nat) : (s.makeOrphan n).lanes = s.lanes :=
  (congrArg State.lanes (makeOrphan_frame s n) :)
@[simp] theorem makeOrphan_laneSettings (s : State) (n : Nat) : (s.makeOrphan n).laneSettings = s.laneSettings :=
  (congrArg State.laneSettings (makeOrphan_frame s n) :)
@[simp] theorem makeOrphan_engines (s : State) (n : Nat) : (s.makeOrphan n).engines = s.engines :=
  (congrArg State.engines (makeOrphan_frame s n) :)
@[simp] theorem makeOrphan_lastServed (s : State) (n : Nat) : (s.makeOrphan n).lastServed = s.lastServed :=
  (congrArg State.lastServed (makeOrphan_frame s n) :)
@[simp] theorem makeOrphan_locks (s : State) (n : Nat) : (s.makeOrphan n).locks = s.locks :=
  (congrArg State.locks (makeOrphan_frame s n) :)
@[simp] theorem makeOrphan_tariff (s : State) (n : Nat) : (s.makeOrphan n).tariff = s.tariff :=
  (congrArg State.tariff (makeOrphan_frame s n) :)
@[simp] theorem makeOrphan_slots (s : State) (n : Nat) : (s.makeOrphan n).slots = s.slots :=
  (congrArg State.slots (makeOrphan_frame s n) :)
@[simp] theorem makeOrphan_cipher (s : State) (n : Nat) : (s.makeOrphan n).cipher = s.cipher :=
  (congrArg State.cipher (makeOrphan_frame s n) :)
@[simp] theorem makeOrphan_grantKey (s : State) (n : Nat) : (s.makeOrphan n).grantKey = s.grantKey :=
  (congrArg State.grantKey (makeOrphan_frame s n) :)
@[simp] theorem makeOrphan_authority (s : State) (n : Nat) : (s.makeOrphan n).authority = s.authority :=
  (congrArg State.authority (makeOrphan_frame s n) :)
@[simp] theorem makeOrphan_memory (s : State) (n : Nat) : (s.makeOrphan n).memory = s.memory :=
  (congrArg State.memory (makeOrphan_frame s n) :)

/-! ### readWords -/

theorem readWords_frame (s : State) (n : Nat) (d : Decay) :
    s.readWords n d = { s with store := (s.readWords n d).store, memory := (s.readWords n d).memory } := rfl

@[simp] theorem readWords_pending (s : State) (n : Nat) (d : Decay) : (s.readWords n d).pending = s.pending :=
  (congrArg State.pending (readWords_frame s n d) :)
@[simp] theorem readWords_mainsOk (s : State) (n : Nat) (d : Decay) : (s.readWords n d).mainsOk = s.mainsOk :=
  (congrArg State.mainsOk (readWords_frame s n d) :)
@[simp] theorem readWords_pwrWarn (s : State) (n : Nat) (d : Decay) : (s.readWords n d).pwrWarn = s.pwrWarn :=
  (congrArg State.pwrWarn (readWords_frame s n d) :)
@[simp] theorem readWords_resetHeld (s : State) (n : Nat) (d : Decay) : (s.readWords n d).resetHeld = s.resetHeld :=
  (congrArg State.resetHeld (readWords_frame s n d) :)
@[simp] theorem readWords_supply (s : State) (n : Nat) (d : Decay) : (s.readWords n d).supply = s.supply :=
  (congrArg State.supply (readWords_frame s n d) :)
@[simp] theorem readWords_office (s : State) (n : Nat) (d : Decay) : (s.readWords n d).office = s.office :=
  (congrArg State.office (readWords_frame s n d) :)
@[simp] theorem readWords_faultRecord (s : State) (n : Nat) (d : Decay) : (s.readWords n d).faultRecord = s.faultRecord :=
  (congrArg State.faultRecord (readWords_frame s n d) :)
@[simp] theorem readWords_exchange (s : State) (n : Nat) (d : Decay) : (s.readWords n d).exchange = s.exchange :=
  (congrArg State.exchange (readWords_frame s n d) :)
@[simp] theorem readWords_events (s : State) (n : Nat) (d : Decay) : (s.readWords n d).events = s.events :=
  (congrArg State.events (readWords_frame s n d) :)
@[simp] theorem readWords_settings (s : State) (n : Nat) (d : Decay) : (s.readWords n d).settings = s.settings :=
  (congrArg State.settings (readWords_frame s n d) :)
@[simp] theorem readWords_lanes (s : State) (n : Nat) (d : Decay) : (s.readWords n d).lanes = s.lanes :=
  (congrArg State.lanes (readWords_frame s n d) :)
@[simp] theorem readWords_laneSettings (s : State) (n : Nat) (d : Decay) : (s.readWords n d).laneSettings = s.laneSettings :=
  (congrArg State.laneSettings (readWords_frame s n d) :)
@[simp] theorem readWords_engines (s : State) (n : Nat) (d : Decay) : (s.readWords n d).engines = s.engines :=
  (congrArg State.engines (readWords_frame s n d) :)
@[simp] theorem readWords_lastServed (s : State) (n : Nat) (d : Decay) : (s.readWords n d).lastServed = s.lastServed :=
  (congrArg State.lastServed (readWords_frame s n d) :)
@[simp] theorem readWords_locks (s : State) (n : Nat) (d : Decay) : (s.readWords n d).locks = s.locks :=
  (congrArg State.locks (readWords_frame s n d) :)
@[simp] theorem readWords_tariff (s : State) (n : Nat) (d : Decay) : (s.readWords n d).tariff = s.tariff :=
  (congrArg State.tariff (readWords_frame s n d) :)
@[simp] theorem readWords_slots (s : State) (n : Nat) (d : Decay) : (s.readWords n d).slots = s.slots :=
  (congrArg State.slots (readWords_frame s n d) :)
@[simp] theorem readWords_cipher (s : State) (n : Nat) (d : Decay) : (s.readWords n d).cipher = s.cipher :=
  (congrArg State.cipher (readWords_frame s n d) :)
@[simp] theorem readWords_grantKey (s : State) (n : Nat) (d : Decay) : (s.readWords n d).grantKey = s.grantKey :=
  (congrArg State.grantKey (readWords_frame s n d) :)
@[simp] theorem readWords_authority (s : State) (n : Nat) (d : Decay) : (s.readWords n d).authority = s.authority :=
  (congrArg State.authority (readWords_frame s n d) :)

/-! ### readRecordRow -/

theorem readRecordRow_frame (s : State) (n : Nat) (d : Decay) :
    s.readRecordRow n d = { s with events := (s.readRecordRow n d).events, store := (s.readRecordRow n d).store, memory := (s.readRecordRow n d).memory } := by
  unfold State.readRecordRow
  split
  · rfl
  · rw [markDamaged_frame]; rfl
  · rfl

@[simp] theorem readRecordRow_pending (s : State) (n : Nat) (d : Decay) : (s.readRecordRow n d).pending = s.pending :=
  (congrArg State.pending (readRecordRow_frame s n d) :)
@[simp] theorem readRecordRow_mainsOk (s : State) (n : Nat) (d : Decay) : (s.readRecordRow n d).mainsOk = s.mainsOk :=
  (congrArg State.mainsOk (readRecordRow_frame s n d) :)
@[simp] theorem readRecordRow_pwrWarn (s : State) (n : Nat) (d : Decay) : (s.readRecordRow n d).pwrWarn = s.pwrWarn :=
  (congrArg State.pwrWarn (readRecordRow_frame s n d) :)
@[simp] theorem readRecordRow_resetHeld (s : State) (n : Nat) (d : Decay) : (s.readRecordRow n d).resetHeld = s.resetHeld :=
  (congrArg State.resetHeld (readRecordRow_frame s n d) :)
@[simp] theorem readRecordRow_supply (s : State) (n : Nat) (d : Decay) : (s.readRecordRow n d).supply = s.supply :=
  (congrArg State.supply (readRecordRow_frame s n d) :)
@[simp] theorem readRecordRow_office (s : State) (n : Nat) (d : Decay) : (s.readRecordRow n d).office = s.office :=
  (congrArg State.office (readRecordRow_frame s n d) :)
@[simp] theorem readRecordRow_faultRecord (s : State) (n : Nat) (d : Decay) : (s.readRecordRow n d).faultRecord = s.faultRecord :=
  (congrArg State.faultRecord (readRecordRow_frame s n d) :)
@[simp] theorem readRecordRow_exchange (s : State) (n : Nat) (d : Decay) : (s.readRecordRow n d).exchange = s.exchange :=
  (congrArg State.exchange (readRecordRow_frame s n d) :)
@[simp] theorem readRecordRow_settings (s : State) (n : Nat) (d : Decay) : (s.readRecordRow n d).settings = s.settings :=
  (congrArg State.settings (readRecordRow_frame s n d) :)
@[simp] theorem readRecordRow_lanes (s : State) (n : Nat) (d : Decay) : (s.readRecordRow n d).lanes = s.lanes :=
  (congrArg State.lanes (readRecordRow_frame s n d) :)
@[simp] theorem readRecordRow_laneSettings (s : State) (n : Nat) (d : Decay) : (s.readRecordRow n d).laneSettings = s.laneSettings :=
  (congrArg State.laneSettings (readRecordRow_frame s n d) :)
@[simp] theorem readRecordRow_engines (s : State) (n : Nat) (d : Decay) : (s.readRecordRow n d).engines = s.engines :=
  (congrArg State.engines (readRecordRow_frame s n d) :)
@[simp] theorem readRecordRow_lastServed (s : State) (n : Nat) (d : Decay) : (s.readRecordRow n d).lastServed = s.lastServed :=
  (congrArg State.lastServed (readRecordRow_frame s n d) :)
@[simp] theorem readRecordRow_locks (s : State) (n : Nat) (d : Decay) : (s.readRecordRow n d).locks = s.locks :=
  (congrArg State.locks (readRecordRow_frame s n d) :)
@[simp] theorem readRecordRow_tariff (s : State) (n : Nat) (d : Decay) : (s.readRecordRow n d).tariff = s.tariff :=
  (congrArg State.tariff (readRecordRow_frame s n d) :)
@[simp] theorem readRecordRow_slots (s : State) (n : Nat) (d : Decay) : (s.readRecordRow n d).slots = s.slots :=
  (congrArg State.slots (readRecordRow_frame s n d) :)
@[simp] theorem readRecordRow_cipher (s : State) (n : Nat) (d : Decay) : (s.readRecordRow n d).cipher = s.cipher :=
  (congrArg State.cipher (readRecordRow_frame s n d) :)
@[simp] theorem readRecordRow_grantKey (s : State) (n : Nat) (d : Decay) : (s.readRecordRow n d).grantKey = s.grantKey :=
  (congrArg State.grantKey (readRecordRow_frame s n d) :)
@[simp] theorem readRecordRow_authority (s : State) (n : Nat) (d : Decay) : (s.readRecordRow n d).authority = s.authority :=
  (congrArg State.authority (readRecordRow_frame s n d) :)

/-! ### readPlainRow -/

theorem readPlainRow_frame (s : State) (id : RowId) (d : Decay) :
    s.readPlainRow id d = { s with store := (s.readPlainRow id d).store, memory := (s.readPlainRow id d).memory } := rfl

@[simp] theorem readPlainRow_pending (s : State) (id : RowId) (d : Decay) : (s.readPlainRow id d).pending = s.pending :=
  (congrArg State.pending (readPlainRow_frame s id d) :)
@[simp] theorem readPlainRow_mainsOk (s : State) (id : RowId) (d : Decay) : (s.readPlainRow id d).mainsOk = s.mainsOk :=
  (congrArg State.mainsOk (readPlainRow_frame s id d) :)
@[simp] theorem readPlainRow_pwrWarn (s : State) (id : RowId) (d : Decay) : (s.readPlainRow id d).pwrWarn = s.pwrWarn :=
  (congrArg State.pwrWarn (readPlainRow_frame s id d) :)
@[simp] theorem readPlainRow_resetHeld (s : State) (id : RowId) (d : Decay) : (s.readPlainRow id d).resetHeld = s.resetHeld :=
  (congrArg State.resetHeld (readPlainRow_frame s id d) :)
@[simp] theorem readPlainRow_supply (s : State) (id : RowId) (d : Decay) : (s.readPlainRow id d).supply = s.supply :=
  (congrArg State.supply (readPlainRow_frame s id d) :)
@[simp] theorem readPlainRow_office (s : State) (id : RowId) (d : Decay) : (s.readPlainRow id d).office = s.office :=
  (congrArg State.office (readPlainRow_frame s id d) :)
@[simp] theorem readPlainRow_faultRecord (s : State) (id : RowId) (d : Decay) : (s.readPlainRow id d).faultRecord = s.faultRecord :=
  (congrArg State.faultRecord (readPlainRow_frame s id d) :)
@[simp] theorem readPlainRow_exchange (s : State) (id : RowId) (d : Decay) : (s.readPlainRow id d).exchange = s.exchange :=
  (congrArg State.exchange (readPlainRow_frame s id d) :)
@[simp] theorem readPlainRow_events (s : State) (id : RowId) (d : Decay) : (s.readPlainRow id d).events = s.events :=
  (congrArg State.events (readPlainRow_frame s id d) :)
@[simp] theorem readPlainRow_settings (s : State) (id : RowId) (d : Decay) : (s.readPlainRow id d).settings = s.settings :=
  (congrArg State.settings (readPlainRow_frame s id d) :)
@[simp] theorem readPlainRow_lanes (s : State) (id : RowId) (d : Decay) : (s.readPlainRow id d).lanes = s.lanes :=
  (congrArg State.lanes (readPlainRow_frame s id d) :)
@[simp] theorem readPlainRow_laneSettings (s : State) (id : RowId) (d : Decay) : (s.readPlainRow id d).laneSettings = s.laneSettings :=
  (congrArg State.laneSettings (readPlainRow_frame s id d) :)
@[simp] theorem readPlainRow_engines (s : State) (id : RowId) (d : Decay) : (s.readPlainRow id d).engines = s.engines :=
  (congrArg State.engines (readPlainRow_frame s id d) :)
@[simp] theorem readPlainRow_lastServed (s : State) (id : RowId) (d : Decay) : (s.readPlainRow id d).lastServed = s.lastServed :=
  (congrArg State.lastServed (readPlainRow_frame s id d) :)
@[simp] theorem readPlainRow_locks (s : State) (id : RowId) (d : Decay) : (s.readPlainRow id d).locks = s.locks :=
  (congrArg State.locks (readPlainRow_frame s id d) :)
@[simp] theorem readPlainRow_tariff (s : State) (id : RowId) (d : Decay) : (s.readPlainRow id d).tariff = s.tariff :=
  (congrArg State.tariff (readPlainRow_frame s id d) :)
@[simp] theorem readPlainRow_slots (s : State) (id : RowId) (d : Decay) : (s.readPlainRow id d).slots = s.slots :=
  (congrArg State.slots (readPlainRow_frame s id d) :)
@[simp] theorem readPlainRow_cipher (s : State) (id : RowId) (d : Decay) : (s.readPlainRow id d).cipher = s.cipher :=
  (congrArg State.cipher (readPlainRow_frame s id d) :)
@[simp] theorem readPlainRow_grantKey (s : State) (id : RowId) (d : Decay) : (s.readPlainRow id d).grantKey = s.grantKey :=
  (congrArg State.grantKey (readPlainRow_frame s id d) :)
@[simp] theorem readPlainRow_authority (s : State) (id : RowId) (d : Decay) : (s.readPlainRow id d).authority = s.authority :=
  (congrArg State.authority (readPlainRow_frame s id d) :)

/-! ### takeOp -/

theorem takeOp_frame (s : State) (op : RowOp) :
    s.takeOp op = { s with store := (s.takeOp op).store } := by
  unfold State.takeOp; dsimp only; split <;> first | rfl | (split <;> rfl)

@[simp] theorem takeOp_pending (s : State) (op : RowOp) : (s.takeOp op).pending = s.pending :=
  (congrArg State.pending (takeOp_frame s op) :)
@[simp] theorem takeOp_mainsOk (s : State) (op : RowOp) : (s.takeOp op).mainsOk = s.mainsOk :=
  (congrArg State.mainsOk (takeOp_frame s op) :)
@[simp] theorem takeOp_pwrWarn (s : State) (op : RowOp) : (s.takeOp op).pwrWarn = s.pwrWarn :=
  (congrArg State.pwrWarn (takeOp_frame s op) :)
@[simp] theorem takeOp_resetHeld (s : State) (op : RowOp) : (s.takeOp op).resetHeld = s.resetHeld :=
  (congrArg State.resetHeld (takeOp_frame s op) :)
@[simp] theorem takeOp_supply (s : State) (op : RowOp) : (s.takeOp op).supply = s.supply :=
  (congrArg State.supply (takeOp_frame s op) :)
@[simp] theorem takeOp_office (s : State) (op : RowOp) : (s.takeOp op).office = s.office :=
  (congrArg State.office (takeOp_frame s op) :)
@[simp] theorem takeOp_faultRecord (s : State) (op : RowOp) : (s.takeOp op).faultRecord = s.faultRecord :=
  (congrArg State.faultRecord (takeOp_frame s op) :)
@[simp] theorem takeOp_exchange (s : State) (op : RowOp) : (s.takeOp op).exchange = s.exchange :=
  (congrArg State.exchange (takeOp_frame s op) :)
@[simp] theorem takeOp_events (s : State) (op : RowOp) : (s.takeOp op).events = s.events :=
  (congrArg State.events (takeOp_frame s op) :)
@[simp] theorem takeOp_settings (s : State) (op : RowOp) : (s.takeOp op).settings = s.settings :=
  (congrArg State.settings (takeOp_frame s op) :)
@[simp] theorem takeOp_lanes (s : State) (op : RowOp) : (s.takeOp op).lanes = s.lanes :=
  (congrArg State.lanes (takeOp_frame s op) :)
@[simp] theorem takeOp_laneSettings (s : State) (op : RowOp) : (s.takeOp op).laneSettings = s.laneSettings :=
  (congrArg State.laneSettings (takeOp_frame s op) :)
@[simp] theorem takeOp_engines (s : State) (op : RowOp) : (s.takeOp op).engines = s.engines :=
  (congrArg State.engines (takeOp_frame s op) :)
@[simp] theorem takeOp_lastServed (s : State) (op : RowOp) : (s.takeOp op).lastServed = s.lastServed :=
  (congrArg State.lastServed (takeOp_frame s op) :)
@[simp] theorem takeOp_locks (s : State) (op : RowOp) : (s.takeOp op).locks = s.locks :=
  (congrArg State.locks (takeOp_frame s op) :)
@[simp] theorem takeOp_tariff (s : State) (op : RowOp) : (s.takeOp op).tariff = s.tariff :=
  (congrArg State.tariff (takeOp_frame s op) :)
@[simp] theorem takeOp_slots (s : State) (op : RowOp) : (s.takeOp op).slots = s.slots :=
  (congrArg State.slots (takeOp_frame s op) :)
@[simp] theorem takeOp_cipher (s : State) (op : RowOp) : (s.takeOp op).cipher = s.cipher :=
  (congrArg State.cipher (takeOp_frame s op) :)
@[simp] theorem takeOp_grantKey (s : State) (op : RowOp) : (s.takeOp op).grantKey = s.grantKey :=
  (congrArg State.grantKey (takeOp_frame s op) :)
@[simp] theorem takeOp_authority (s : State) (op : RowOp) : (s.takeOp op).authority = s.authority :=
  (congrArg State.authority (takeOp_frame s op) :)
@[simp] theorem takeOp_memory (s : State) (op : RowOp) : (s.takeOp op).memory = s.memory :=
  (congrArg State.memory (takeOp_frame s op) :)

/-! ### place -/

theorem place_frame (s : State) (op : RowOp) :
    s.place op = { s with store := (s.place op).store } := by
  unfold State.place
  split
  · exact takeOp_frame s op
  · rfl

@[simp] theorem place_pending (s : State) (op : RowOp) : (s.place op).pending = s.pending :=
  (congrArg State.pending (place_frame s op) :)
@[simp] theorem place_mainsOk (s : State) (op : RowOp) : (s.place op).mainsOk = s.mainsOk :=
  (congrArg State.mainsOk (place_frame s op) :)
@[simp] theorem place_pwrWarn (s : State) (op : RowOp) : (s.place op).pwrWarn = s.pwrWarn :=
  (congrArg State.pwrWarn (place_frame s op) :)
@[simp] theorem place_resetHeld (s : State) (op : RowOp) : (s.place op).resetHeld = s.resetHeld :=
  (congrArg State.resetHeld (place_frame s op) :)
@[simp] theorem place_supply (s : State) (op : RowOp) : (s.place op).supply = s.supply :=
  (congrArg State.supply (place_frame s op) :)
@[simp] theorem place_office (s : State) (op : RowOp) : (s.place op).office = s.office :=
  (congrArg State.office (place_frame s op) :)
@[simp] theorem place_faultRecord (s : State) (op : RowOp) : (s.place op).faultRecord = s.faultRecord :=
  (congrArg State.faultRecord (place_frame s op) :)
@[simp] theorem place_exchange (s : State) (op : RowOp) : (s.place op).exchange = s.exchange :=
  (congrArg State.exchange (place_frame s op) :)
@[simp] theorem place_events (s : State) (op : RowOp) : (s.place op).events = s.events :=
  (congrArg State.events (place_frame s op) :)
@[simp] theorem place_settings (s : State) (op : RowOp) : (s.place op).settings = s.settings :=
  (congrArg State.settings (place_frame s op) :)
@[simp] theorem place_lanes (s : State) (op : RowOp) : (s.place op).lanes = s.lanes :=
  (congrArg State.lanes (place_frame s op) :)
@[simp] theorem place_laneSettings (s : State) (op : RowOp) : (s.place op).laneSettings = s.laneSettings :=
  (congrArg State.laneSettings (place_frame s op) :)
@[simp] theorem place_engines (s : State) (op : RowOp) : (s.place op).engines = s.engines :=
  (congrArg State.engines (place_frame s op) :)
@[simp] theorem place_lastServed (s : State) (op : RowOp) : (s.place op).lastServed = s.lastServed :=
  (congrArg State.lastServed (place_frame s op) :)
@[simp] theorem place_locks (s : State) (op : RowOp) : (s.place op).locks = s.locks :=
  (congrArg State.locks (place_frame s op) :)
@[simp] theorem place_tariff (s : State) (op : RowOp) : (s.place op).tariff = s.tariff :=
  (congrArg State.tariff (place_frame s op) :)
@[simp] theorem place_slots (s : State) (op : RowOp) : (s.place op).slots = s.slots :=
  (congrArg State.slots (place_frame s op) :)
@[simp] theorem place_cipher (s : State) (op : RowOp) : (s.place op).cipher = s.cipher :=
  (congrArg State.cipher (place_frame s op) :)
@[simp] theorem place_grantKey (s : State) (op : RowOp) : (s.place op).grantKey = s.grantKey :=
  (congrArg State.grantKey (place_frame s op) :)
@[simp] theorem place_authority (s : State) (op : RowOp) : (s.place op).authority = s.authority :=
  (congrArg State.authority (place_frame s op) :)
@[simp] theorem place_memory (s : State) (op : RowOp) : (s.place op).memory = s.memory :=
  (congrArg State.memory (place_frame s op) :)

/-! ### finishOp -/

theorem finishOp_frame (s : State) :
    s.finishOp = { s with store := (s.finishOp).store } := by
  unfold State.finishOp
  split
  · rfl
  · rw [takeOp_frame]

@[simp] theorem finishOp_pending (s : State) : (s.finishOp).pending = s.pending :=
  (congrArg State.pending (finishOp_frame s) :)
@[simp] theorem finishOp_mainsOk (s : State) : (s.finishOp).mainsOk = s.mainsOk :=
  (congrArg State.mainsOk (finishOp_frame s) :)
@[simp] theorem finishOp_pwrWarn (s : State) : (s.finishOp).pwrWarn = s.pwrWarn :=
  (congrArg State.pwrWarn (finishOp_frame s) :)
@[simp] theorem finishOp_resetHeld (s : State) : (s.finishOp).resetHeld = s.resetHeld :=
  (congrArg State.resetHeld (finishOp_frame s) :)
@[simp] theorem finishOp_supply (s : State) : (s.finishOp).supply = s.supply :=
  (congrArg State.supply (finishOp_frame s) :)
@[simp] theorem finishOp_office (s : State) : (s.finishOp).office = s.office :=
  (congrArg State.office (finishOp_frame s) :)
@[simp] theorem finishOp_faultRecord (s : State) : (s.finishOp).faultRecord = s.faultRecord :=
  (congrArg State.faultRecord (finishOp_frame s) :)
@[simp] theorem finishOp_exchange (s : State) : (s.finishOp).exchange = s.exchange :=
  (congrArg State.exchange (finishOp_frame s) :)
@[simp] theorem finishOp_events (s : State) : (s.finishOp).events = s.events :=
  (congrArg State.events (finishOp_frame s) :)
@[simp] theorem finishOp_settings (s : State) : (s.finishOp).settings = s.settings :=
  (congrArg State.settings (finishOp_frame s) :)
@[simp] theorem finishOp_lanes (s : State) : (s.finishOp).lanes = s.lanes :=
  (congrArg State.lanes (finishOp_frame s) :)
@[simp] theorem finishOp_laneSettings (s : State) : (s.finishOp).laneSettings = s.laneSettings :=
  (congrArg State.laneSettings (finishOp_frame s) :)
@[simp] theorem finishOp_engines (s : State) : (s.finishOp).engines = s.engines :=
  (congrArg State.engines (finishOp_frame s) :)
@[simp] theorem finishOp_lastServed (s : State) : (s.finishOp).lastServed = s.lastServed :=
  (congrArg State.lastServed (finishOp_frame s) :)
@[simp] theorem finishOp_locks (s : State) : (s.finishOp).locks = s.locks :=
  (congrArg State.locks (finishOp_frame s) :)
@[simp] theorem finishOp_tariff (s : State) : (s.finishOp).tariff = s.tariff :=
  (congrArg State.tariff (finishOp_frame s) :)
@[simp] theorem finishOp_slots (s : State) : (s.finishOp).slots = s.slots :=
  (congrArg State.slots (finishOp_frame s) :)
@[simp] theorem finishOp_cipher (s : State) : (s.finishOp).cipher = s.cipher :=
  (congrArg State.cipher (finishOp_frame s) :)
@[simp] theorem finishOp_grantKey (s : State) : (s.finishOp).grantKey = s.grantKey :=
  (congrArg State.grantKey (finishOp_frame s) :)
@[simp] theorem finishOp_authority (s : State) : (s.finishOp).authority = s.authority :=
  (congrArg State.authority (finishOp_frame s) :)
@[simp] theorem finishOp_memory (s : State) : (s.finishOp).memory = s.memory :=
  (congrArg State.memory (finishOp_frame s) :)

/-! ### grantClaim -/

theorem grantClaim_frame (s : State) (e : EngineId) (m : MeterNumber) :
    s.grantClaim e m = { s with engines := (s.grantClaim e m).engines, locks := (s.grantClaim e m).locks, store := (s.grantClaim e m).store } := by
  unfold State.grantClaim
  dsimp only
  split
  · rw [place_frame]; rfl
  · rfl

@[simp] theorem grantClaim_pending (s : State) (e : EngineId) (m : MeterNumber) : (s.grantClaim e m).pending = s.pending :=
  (congrArg State.pending (grantClaim_frame s e m) :)
@[simp] theorem grantClaim_mainsOk (s : State) (e : EngineId) (m : MeterNumber) : (s.grantClaim e m).mainsOk = s.mainsOk :=
  (congrArg State.mainsOk (grantClaim_frame s e m) :)
@[simp] theorem grantClaim_pwrWarn (s : State) (e : EngineId) (m : MeterNumber) : (s.grantClaim e m).pwrWarn = s.pwrWarn :=
  (congrArg State.pwrWarn (grantClaim_frame s e m) :)
@[simp] theorem grantClaim_resetHeld (s : State) (e : EngineId) (m : MeterNumber) : (s.grantClaim e m).resetHeld = s.resetHeld :=
  (congrArg State.resetHeld (grantClaim_frame s e m) :)
@[simp] theorem grantClaim_supply (s : State) (e : EngineId) (m : MeterNumber) : (s.grantClaim e m).supply = s.supply :=
  (congrArg State.supply (grantClaim_frame s e m) :)
@[simp] theorem grantClaim_office (s : State) (e : EngineId) (m : MeterNumber) : (s.grantClaim e m).office = s.office :=
  (congrArg State.office (grantClaim_frame s e m) :)
@[simp] theorem grantClaim_faultRecord (s : State) (e : EngineId) (m : MeterNumber) : (s.grantClaim e m).faultRecord = s.faultRecord :=
  (congrArg State.faultRecord (grantClaim_frame s e m) :)
@[simp] theorem grantClaim_exchange (s : State) (e : EngineId) (m : MeterNumber) : (s.grantClaim e m).exchange = s.exchange :=
  (congrArg State.exchange (grantClaim_frame s e m) :)
@[simp] theorem grantClaim_events (s : State) (e : EngineId) (m : MeterNumber) : (s.grantClaim e m).events = s.events :=
  (congrArg State.events (grantClaim_frame s e m) :)
@[simp] theorem grantClaim_settings (s : State) (e : EngineId) (m : MeterNumber) : (s.grantClaim e m).settings = s.settings :=
  (congrArg State.settings (grantClaim_frame s e m) :)
@[simp] theorem grantClaim_lanes (s : State) (e : EngineId) (m : MeterNumber) : (s.grantClaim e m).lanes = s.lanes :=
  (congrArg State.lanes (grantClaim_frame s e m) :)
@[simp] theorem grantClaim_laneSettings (s : State) (e : EngineId) (m : MeterNumber) : (s.grantClaim e m).laneSettings = s.laneSettings :=
  (congrArg State.laneSettings (grantClaim_frame s e m) :)
@[simp] theorem grantClaim_lastServed (s : State) (e : EngineId) (m : MeterNumber) : (s.grantClaim e m).lastServed = s.lastServed :=
  (congrArg State.lastServed (grantClaim_frame s e m) :)
@[simp] theorem grantClaim_tariff (s : State) (e : EngineId) (m : MeterNumber) : (s.grantClaim e m).tariff = s.tariff :=
  (congrArg State.tariff (grantClaim_frame s e m) :)
@[simp] theorem grantClaim_slots (s : State) (e : EngineId) (m : MeterNumber) : (s.grantClaim e m).slots = s.slots :=
  (congrArg State.slots (grantClaim_frame s e m) :)
@[simp] theorem grantClaim_cipher (s : State) (e : EngineId) (m : MeterNumber) : (s.grantClaim e m).cipher = s.cipher :=
  (congrArg State.cipher (grantClaim_frame s e m) :)
@[simp] theorem grantClaim_grantKey (s : State) (e : EngineId) (m : MeterNumber) : (s.grantClaim e m).grantKey = s.grantKey :=
  (congrArg State.grantKey (grantClaim_frame s e m) :)
@[simp] theorem grantClaim_authority (s : State) (e : EngineId) (m : MeterNumber) : (s.grantClaim e m).authority = s.authority :=
  (congrArg State.authority (grantClaim_frame s e m) :)
@[simp] theorem grantClaim_memory (s : State) (e : EngineId) (m : MeterNumber) : (s.grantClaim e m).memory = s.memory :=
  (congrArg State.memory (grantClaim_frame s e m) :)

/-! ### claim -/

theorem claim_frame (s : State) (e : EngineId) (m : MeterNumber) :
    s.claim e m = { s with engines := (s.claim e m).engines, locks := (s.claim e m).locks, store := (s.claim e m).store } := by
  unfold State.claim
  split
  · exact grantClaim_frame s e m
  · rfl

@[simp] theorem claim_pending (s : State) (e : EngineId) (m : MeterNumber) : (s.claim e m).pending = s.pending :=
  (congrArg State.pending (claim_frame s e m) :)
@[simp] theorem claim_mainsOk (s : State) (e : EngineId) (m : MeterNumber) : (s.claim e m).mainsOk = s.mainsOk :=
  (congrArg State.mainsOk (claim_frame s e m) :)
@[simp] theorem claim_pwrWarn (s : State) (e : EngineId) (m : MeterNumber) : (s.claim e m).pwrWarn = s.pwrWarn :=
  (congrArg State.pwrWarn (claim_frame s e m) :)
@[simp] theorem claim_resetHeld (s : State) (e : EngineId) (m : MeterNumber) : (s.claim e m).resetHeld = s.resetHeld :=
  (congrArg State.resetHeld (claim_frame s e m) :)
@[simp] theorem claim_supply (s : State) (e : EngineId) (m : MeterNumber) : (s.claim e m).supply = s.supply :=
  (congrArg State.supply (claim_frame s e m) :)
@[simp] theorem claim_office (s : State) (e : EngineId) (m : MeterNumber) : (s.claim e m).office = s.office :=
  (congrArg State.office (claim_frame s e m) :)
@[simp] theorem claim_faultRecord (s : State) (e : EngineId) (m : MeterNumber) : (s.claim e m).faultRecord = s.faultRecord :=
  (congrArg State.faultRecord (claim_frame s e m) :)
@[simp] theorem claim_exchange (s : State) (e : EngineId) (m : MeterNumber) : (s.claim e m).exchange = s.exchange :=
  (congrArg State.exchange (claim_frame s e m) :)
@[simp] theorem claim_events (s : State) (e : EngineId) (m : MeterNumber) : (s.claim e m).events = s.events :=
  (congrArg State.events (claim_frame s e m) :)
@[simp] theorem claim_settings (s : State) (e : EngineId) (m : MeterNumber) : (s.claim e m).settings = s.settings :=
  (congrArg State.settings (claim_frame s e m) :)
@[simp] theorem claim_lanes (s : State) (e : EngineId) (m : MeterNumber) : (s.claim e m).lanes = s.lanes :=
  (congrArg State.lanes (claim_frame s e m) :)
@[simp] theorem claim_laneSettings (s : State) (e : EngineId) (m : MeterNumber) : (s.claim e m).laneSettings = s.laneSettings :=
  (congrArg State.laneSettings (claim_frame s e m) :)
@[simp] theorem claim_lastServed (s : State) (e : EngineId) (m : MeterNumber) : (s.claim e m).lastServed = s.lastServed :=
  (congrArg State.lastServed (claim_frame s e m) :)
@[simp] theorem claim_tariff (s : State) (e : EngineId) (m : MeterNumber) : (s.claim e m).tariff = s.tariff :=
  (congrArg State.tariff (claim_frame s e m) :)
@[simp] theorem claim_slots (s : State) (e : EngineId) (m : MeterNumber) : (s.claim e m).slots = s.slots :=
  (congrArg State.slots (claim_frame s e m) :)
@[simp] theorem claim_cipher (s : State) (e : EngineId) (m : MeterNumber) : (s.claim e m).cipher = s.cipher :=
  (congrArg State.cipher (claim_frame s e m) :)
@[simp] theorem claim_grantKey (s : State) (e : EngineId) (m : MeterNumber) : (s.claim e m).grantKey = s.grantKey :=
  (congrArg State.grantKey (claim_frame s e m) :)
@[simp] theorem claim_authority (s : State) (e : EngineId) (m : MeterNumber) : (s.claim e m).authority = s.authority :=
  (congrArg State.authority (claim_frame s e m) :)
@[simp] theorem claim_memory (s : State) (e : EngineId) (m : MeterNumber) : (s.claim e m).memory = s.memory :=
  (congrArg State.memory (claim_frame s e m) :)

/-! ### consultLocks -/

theorem consultLocks_frame (s : State) (op : RecordOp) :
    s.consultLocks op = { s with exchange := (s.consultLocks op).exchange, events := (s.consultLocks op).events, lanes := (s.consultLocks op).lanes, locks := (s.consultLocks op).locks, store := (s.consultLocks op).store } := by
  unfold State.consultLocks
  split
  · rw [place_frame]
  · split
    · rw [answer_frame]
    · split
      · rfl
      · rw [place_frame]

@[simp] theorem consultLocks_pending (s : State) (op : RecordOp) : (s.consultLocks op).pending = s.pending :=
  (congrArg State.pending (consultLocks_frame s op) :)
@[simp] theorem consultLocks_mainsOk (s : State) (op : RecordOp) : (s.consultLocks op).mainsOk = s.mainsOk :=
  (congrArg State.mainsOk (consultLocks_frame s op) :)
@[simp] theorem consultLocks_pwrWarn (s : State) (op : RecordOp) : (s.consultLocks op).pwrWarn = s.pwrWarn :=
  (congrArg State.pwrWarn (consultLocks_frame s op) :)
@[simp] theorem consultLocks_resetHeld (s : State) (op : RecordOp) : (s.consultLocks op).resetHeld = s.resetHeld :=
  (congrArg State.resetHeld (consultLocks_frame s op) :)
@[simp] theorem consultLocks_supply (s : State) (op : RecordOp) : (s.consultLocks op).supply = s.supply :=
  (congrArg State.supply (consultLocks_frame s op) :)
@[simp] theorem consultLocks_office (s : State) (op : RecordOp) : (s.consultLocks op).office = s.office :=
  (congrArg State.office (consultLocks_frame s op) :)
@[simp] theorem consultLocks_faultRecord (s : State) (op : RecordOp) : (s.consultLocks op).faultRecord = s.faultRecord :=
  (congrArg State.faultRecord (consultLocks_frame s op) :)
@[simp] theorem consultLocks_settings (s : State) (op : RecordOp) : (s.consultLocks op).settings = s.settings :=
  (congrArg State.settings (consultLocks_frame s op) :)
@[simp] theorem consultLocks_laneSettings (s : State) (op : RecordOp) : (s.consultLocks op).laneSettings = s.laneSettings :=
  (congrArg State.laneSettings (consultLocks_frame s op) :)
@[simp] theorem consultLocks_engines (s : State) (op : RecordOp) : (s.consultLocks op).engines = s.engines :=
  (congrArg State.engines (consultLocks_frame s op) :)
@[simp] theorem consultLocks_lastServed (s : State) (op : RecordOp) : (s.consultLocks op).lastServed = s.lastServed :=
  (congrArg State.lastServed (consultLocks_frame s op) :)
@[simp] theorem consultLocks_tariff (s : State) (op : RecordOp) : (s.consultLocks op).tariff = s.tariff :=
  (congrArg State.tariff (consultLocks_frame s op) :)
@[simp] theorem consultLocks_slots (s : State) (op : RecordOp) : (s.consultLocks op).slots = s.slots :=
  (congrArg State.slots (consultLocks_frame s op) :)
@[simp] theorem consultLocks_cipher (s : State) (op : RecordOp) : (s.consultLocks op).cipher = s.cipher :=
  (congrArg State.cipher (consultLocks_frame s op) :)
@[simp] theorem consultLocks_grantKey (s : State) (op : RecordOp) : (s.consultLocks op).grantKey = s.grantKey :=
  (congrArg State.grantKey (consultLocks_frame s op) :)
@[simp] theorem consultLocks_authority (s : State) (op : RecordOp) : (s.consultLocks op).authority = s.authority :=
  (congrArg State.authority (consultLocks_frame s op) :)
@[simp] theorem consultLocks_memory (s : State) (op : RecordOp) : (s.consultLocks op).memory = s.memory :=
  (congrArg State.memory (consultLocks_frame s op) :)

/-! ### discardFrame -/

theorem discardFrame_frame (s : State) :
    s.discardFrame = { s with exchange := (s.discardFrame).exchange } := by
  unfold State.discardFrame; split <;> rfl

@[simp] theorem discardFrame_pending (s : State) : (s.discardFrame).pending = s.pending :=
  (congrArg State.pending (discardFrame_frame s) :)
@[simp] theorem discardFrame_mainsOk (s : State) : (s.discardFrame).mainsOk = s.mainsOk :=
  (congrArg State.mainsOk (discardFrame_frame s) :)
@[simp] theorem discardFrame_pwrWarn (s : State) : (s.discardFrame).pwrWarn = s.pwrWarn :=
  (congrArg State.pwrWarn (discardFrame_frame s) :)
@[simp] theorem discardFrame_resetHeld (s : State) : (s.discardFrame).resetHeld = s.resetHeld :=
  (congrArg State.resetHeld (discardFrame_frame s) :)
@[simp] theorem discardFrame_supply (s : State) : (s.discardFrame).supply = s.supply :=
  (congrArg State.supply (discardFrame_frame s) :)
@[simp] theorem discardFrame_office (s : State) : (s.discardFrame).office = s.office :=
  (congrArg State.office (discardFrame_frame s) :)
@[simp] theorem discardFrame_faultRecord (s : State) : (s.discardFrame).faultRecord = s.faultRecord :=
  (congrArg State.faultRecord (discardFrame_frame s) :)
@[simp] theorem discardFrame_events (s : State) : (s.discardFrame).events = s.events :=
  (congrArg State.events (discardFrame_frame s) :)
@[simp] theorem discardFrame_settings (s : State) : (s.discardFrame).settings = s.settings :=
  (congrArg State.settings (discardFrame_frame s) :)
@[simp] theorem discardFrame_lanes (s : State) : (s.discardFrame).lanes = s.lanes :=
  (congrArg State.lanes (discardFrame_frame s) :)
@[simp] theorem discardFrame_laneSettings (s : State) : (s.discardFrame).laneSettings = s.laneSettings :=
  (congrArg State.laneSettings (discardFrame_frame s) :)
@[simp] theorem discardFrame_engines (s : State) : (s.discardFrame).engines = s.engines :=
  (congrArg State.engines (discardFrame_frame s) :)
@[simp] theorem discardFrame_lastServed (s : State) : (s.discardFrame).lastServed = s.lastServed :=
  (congrArg State.lastServed (discardFrame_frame s) :)
@[simp] theorem discardFrame_locks (s : State) : (s.discardFrame).locks = s.locks :=
  (congrArg State.locks (discardFrame_frame s) :)
@[simp] theorem discardFrame_tariff (s : State) : (s.discardFrame).tariff = s.tariff :=
  (congrArg State.tariff (discardFrame_frame s) :)
@[simp] theorem discardFrame_slots (s : State) : (s.discardFrame).slots = s.slots :=
  (congrArg State.slots (discardFrame_frame s) :)
@[simp] theorem discardFrame_cipher (s : State) : (s.discardFrame).cipher = s.cipher :=
  (congrArg State.cipher (discardFrame_frame s) :)
@[simp] theorem discardFrame_grantKey (s : State) : (s.discardFrame).grantKey = s.grantKey :=
  (congrArg State.grantKey (discardFrame_frame s) :)
@[simp] theorem discardFrame_authority (s : State) : (s.discardFrame).authority = s.authority :=
  (congrArg State.authority (discardFrame_frame s) :)
@[simp] theorem discardFrame_store (s : State) : (s.discardFrame).store = s.store :=
  (congrArg State.store (discardFrame_frame s) :)
@[simp] theorem discardFrame_memory (s : State) : (s.discardFrame).memory = s.memory :=
  (congrArg State.memory (discardFrame_frame s) :)

/-! ### checkOverdue -/

theorem checkOverdue_frame (s : State) :
    s.checkOverdue = { s with events := (s.checkOverdue).events, authority := (s.checkOverdue).authority, store := (s.checkOverdue).store } := by
  unfold State.checkOverdue
  split
  · rw [place_frame]; rfl
  · rfl

@[simp] theorem checkOverdue_pending (s : State) : (s.checkOverdue).pending = s.pending :=
  (congrArg State.pending (checkOverdue_frame s) :)
@[simp] theorem checkOverdue_mainsOk (s : State) : (s.checkOverdue).mainsOk = s.mainsOk :=
  (congrArg State.mainsOk (checkOverdue_frame s) :)
@[simp] theorem checkOverdue_pwrWarn (s : State) : (s.checkOverdue).pwrWarn = s.pwrWarn :=
  (congrArg State.pwrWarn (checkOverdue_frame s) :)
@[simp] theorem checkOverdue_resetHeld (s : State) : (s.checkOverdue).resetHeld = s.resetHeld :=
  (congrArg State.resetHeld (checkOverdue_frame s) :)
@[simp] theorem checkOverdue_supply (s : State) : (s.checkOverdue).supply = s.supply :=
  (congrArg State.supply (checkOverdue_frame s) :)
@[simp] theorem checkOverdue_office (s : State) : (s.checkOverdue).office = s.office :=
  (congrArg State.office (checkOverdue_frame s) :)
@[simp] theorem checkOverdue_faultRecord (s : State) : (s.checkOverdue).faultRecord = s.faultRecord :=
  (congrArg State.faultRecord (checkOverdue_frame s) :)
@[simp] theorem checkOverdue_exchange (s : State) : (s.checkOverdue).exchange = s.exchange :=
  (congrArg State.exchange (checkOverdue_frame s) :)
@[simp] theorem checkOverdue_settings (s : State) : (s.checkOverdue).settings = s.settings :=
  (congrArg State.settings (checkOverdue_frame s) :)
@[simp] theorem checkOverdue_lanes (s : State) : (s.checkOverdue).lanes = s.lanes :=
  (congrArg State.lanes (checkOverdue_frame s) :)
@[simp] theorem checkOverdue_laneSettings (s : State) : (s.checkOverdue).laneSettings = s.laneSettings :=
  (congrArg State.laneSettings (checkOverdue_frame s) :)
@[simp] theorem checkOverdue_engines (s : State) : (s.checkOverdue).engines = s.engines :=
  (congrArg State.engines (checkOverdue_frame s) :)
@[simp] theorem checkOverdue_lastServed (s : State) : (s.checkOverdue).lastServed = s.lastServed :=
  (congrArg State.lastServed (checkOverdue_frame s) :)
@[simp] theorem checkOverdue_locks (s : State) : (s.checkOverdue).locks = s.locks :=
  (congrArg State.locks (checkOverdue_frame s) :)
@[simp] theorem checkOverdue_tariff (s : State) : (s.checkOverdue).tariff = s.tariff :=
  (congrArg State.tariff (checkOverdue_frame s) :)
@[simp] theorem checkOverdue_slots (s : State) : (s.checkOverdue).slots = s.slots :=
  (congrArg State.slots (checkOverdue_frame s) :)
@[simp] theorem checkOverdue_cipher (s : State) : (s.checkOverdue).cipher = s.cipher :=
  (congrArg State.cipher (checkOverdue_frame s) :)
@[simp] theorem checkOverdue_grantKey (s : State) : (s.checkOverdue).grantKey = s.grantKey :=
  (congrArg State.grantKey (checkOverdue_frame s) :)
@[simp] theorem checkOverdue_memory (s : State) : (s.checkOverdue).memory = s.memory :=
  (congrArg State.memory (checkOverdue_frame s) :)

/-! ### minuteStep -/

theorem minuteStep_frame (s : State) :
    s.minuteStep = { s with events := (s.minuteStep).events, authority := (s.minuteStep).authority, store := (s.minuteStep).store } := by
  unfold State.minuteStep
  dsimp only
  repeat' split
  all_goals first | rfl | (rw [place_frame]; done) | (rw [place_frame]; rfl)

@[simp] theorem minuteStep_pending (s : State) : (s.minuteStep).pending = s.pending :=
  (congrArg State.pending (minuteStep_frame s) :)
@[simp] theorem minuteStep_mainsOk (s : State) : (s.minuteStep).mainsOk = s.mainsOk :=
  (congrArg State.mainsOk (minuteStep_frame s) :)
@[simp] theorem minuteStep_pwrWarn (s : State) : (s.minuteStep).pwrWarn = s.pwrWarn :=
  (congrArg State.pwrWarn (minuteStep_frame s) :)
@[simp] theorem minuteStep_resetHeld (s : State) : (s.minuteStep).resetHeld = s.resetHeld :=
  (congrArg State.resetHeld (minuteStep_frame s) :)
@[simp] theorem minuteStep_supply (s : State) : (s.minuteStep).supply = s.supply :=
  (congrArg State.supply (minuteStep_frame s) :)
@[simp] theorem minuteStep_office (s : State) : (s.minuteStep).office = s.office :=
  (congrArg State.office (minuteStep_frame s) :)
@[simp] theorem minuteStep_faultRecord (s : State) : (s.minuteStep).faultRecord = s.faultRecord :=
  (congrArg State.faultRecord (minuteStep_frame s) :)
@[simp] theorem minuteStep_exchange (s : State) : (s.minuteStep).exchange = s.exchange :=
  (congrArg State.exchange (minuteStep_frame s) :)
@[simp] theorem minuteStep_settings (s : State) : (s.minuteStep).settings = s.settings :=
  (congrArg State.settings (minuteStep_frame s) :)
@[simp] theorem minuteStep_lanes (s : State) : (s.minuteStep).lanes = s.lanes :=
  (congrArg State.lanes (minuteStep_frame s) :)
@[simp] theorem minuteStep_laneSettings (s : State) : (s.minuteStep).laneSettings = s.laneSettings :=
  (congrArg State.laneSettings (minuteStep_frame s) :)
@[simp] theorem minuteStep_engines (s : State) : (s.minuteStep).engines = s.engines :=
  (congrArg State.engines (minuteStep_frame s) :)
@[simp] theorem minuteStep_lastServed (s : State) : (s.minuteStep).lastServed = s.lastServed :=
  (congrArg State.lastServed (minuteStep_frame s) :)
@[simp] theorem minuteStep_locks (s : State) : (s.minuteStep).locks = s.locks :=
  (congrArg State.locks (minuteStep_frame s) :)
@[simp] theorem minuteStep_tariff (s : State) : (s.minuteStep).tariff = s.tariff :=
  (congrArg State.tariff (minuteStep_frame s) :)
@[simp] theorem minuteStep_slots (s : State) : (s.minuteStep).slots = s.slots :=
  (congrArg State.slots (minuteStep_frame s) :)
@[simp] theorem minuteStep_cipher (s : State) : (s.minuteStep).cipher = s.cipher :=
  (congrArg State.cipher (minuteStep_frame s) :)
@[simp] theorem minuteStep_grantKey (s : State) : (s.minuteStep).grantKey = s.grantKey :=
  (congrArg State.grantKey (minuteStep_frame s) :)
@[simp] theorem minuteStep_memory (s : State) : (s.minuteStep).memory = s.memory :=
  (congrArg State.memory (minuteStep_frame s) :)

/-! ### settleTick -/

theorem settleTick_frame (s : State) :
    s.settleTick = { s with events := (s.settleTick).events, lanes := (s.settleTick).lanes, authority := (s.settleTick).authority, store := (s.settleTick).store } := by
  unfold State.settleTick State.settleMinute
  split
  · rw [minuteStep_frame]; rfl
  · rfl

@[simp] theorem settleTick_pending (s : State) : (s.settleTick).pending = s.pending :=
  (congrArg State.pending (settleTick_frame s) :)
@[simp] theorem settleTick_mainsOk (s : State) : (s.settleTick).mainsOk = s.mainsOk :=
  (congrArg State.mainsOk (settleTick_frame s) :)
@[simp] theorem settleTick_pwrWarn (s : State) : (s.settleTick).pwrWarn = s.pwrWarn :=
  (congrArg State.pwrWarn (settleTick_frame s) :)
@[simp] theorem settleTick_resetHeld (s : State) : (s.settleTick).resetHeld = s.resetHeld :=
  (congrArg State.resetHeld (settleTick_frame s) :)
@[simp] theorem settleTick_supply (s : State) : (s.settleTick).supply = s.supply :=
  (congrArg State.supply (settleTick_frame s) :)
@[simp] theorem settleTick_office (s : State) : (s.settleTick).office = s.office :=
  (congrArg State.office (settleTick_frame s) :)
@[simp] theorem settleTick_faultRecord (s : State) : (s.settleTick).faultRecord = s.faultRecord :=
  (congrArg State.faultRecord (settleTick_frame s) :)
@[simp] theorem settleTick_exchange (s : State) : (s.settleTick).exchange = s.exchange :=
  (congrArg State.exchange (settleTick_frame s) :)
@[simp] theorem settleTick_settings (s : State) : (s.settleTick).settings = s.settings :=
  (congrArg State.settings (settleTick_frame s) :)
@[simp] theorem settleTick_laneSettings (s : State) : (s.settleTick).laneSettings = s.laneSettings :=
  (congrArg State.laneSettings (settleTick_frame s) :)
@[simp] theorem settleTick_engines (s : State) : (s.settleTick).engines = s.engines :=
  (congrArg State.engines (settleTick_frame s) :)
@[simp] theorem settleTick_lastServed (s : State) : (s.settleTick).lastServed = s.lastServed :=
  (congrArg State.lastServed (settleTick_frame s) :)
@[simp] theorem settleTick_locks (s : State) : (s.settleTick).locks = s.locks :=
  (congrArg State.locks (settleTick_frame s) :)
@[simp] theorem settleTick_tariff (s : State) : (s.settleTick).tariff = s.tariff :=
  (congrArg State.tariff (settleTick_frame s) :)
@[simp] theorem settleTick_slots (s : State) : (s.settleTick).slots = s.slots :=
  (congrArg State.slots (settleTick_frame s) :)
@[simp] theorem settleTick_cipher (s : State) : (s.settleTick).cipher = s.cipher :=
  (congrArg State.cipher (settleTick_frame s) :)
@[simp] theorem settleTick_grantKey (s : State) : (s.settleTick).grantKey = s.grantKey :=
  (congrArg State.grantKey (settleTick_frame s) :)
@[simp] theorem settleTick_memory (s : State) : (s.settleTick).memory = s.memory :=
  (congrArg State.memory (settleTick_frame s) :)

/-! ### raiseSlots -/

theorem raiseSlots_frame (s : State) (ids : List SlotId) :
    s.raiseSlots ids = { s with slots := (s.raiseSlots ids).slots } := by
  unfold State.raiseSlots
  induction ids generalizing s with
  | nil => rfl
  | cons i rest ih => rw [List.foldl_cons, ih]; rfl

@[simp] theorem raiseSlots_pending (s : State) (ids : List SlotId) : (s.raiseSlots ids).pending = s.pending :=
  (congrArg State.pending (raiseSlots_frame s ids) :)
@[simp] theorem raiseSlots_mainsOk (s : State) (ids : List SlotId) : (s.raiseSlots ids).mainsOk = s.mainsOk :=
  (congrArg State.mainsOk (raiseSlots_frame s ids) :)
@[simp] theorem raiseSlots_pwrWarn (s : State) (ids : List SlotId) : (s.raiseSlots ids).pwrWarn = s.pwrWarn :=
  (congrArg State.pwrWarn (raiseSlots_frame s ids) :)
@[simp] theorem raiseSlots_resetHeld (s : State) (ids : List SlotId) : (s.raiseSlots ids).resetHeld = s.resetHeld :=
  (congrArg State.resetHeld (raiseSlots_frame s ids) :)
@[simp] theorem raiseSlots_supply (s : State) (ids : List SlotId) : (s.raiseSlots ids).supply = s.supply :=
  (congrArg State.supply (raiseSlots_frame s ids) :)
@[simp] theorem raiseSlots_office (s : State) (ids : List SlotId) : (s.raiseSlots ids).office = s.office :=
  (congrArg State.office (raiseSlots_frame s ids) :)
@[simp] theorem raiseSlots_faultRecord (s : State) (ids : List SlotId) : (s.raiseSlots ids).faultRecord = s.faultRecord :=
  (congrArg State.faultRecord (raiseSlots_frame s ids) :)
@[simp] theorem raiseSlots_exchange (s : State) (ids : List SlotId) : (s.raiseSlots ids).exchange = s.exchange :=
  (congrArg State.exchange (raiseSlots_frame s ids) :)
@[simp] theorem raiseSlots_events (s : State) (ids : List SlotId) : (s.raiseSlots ids).events = s.events :=
  (congrArg State.events (raiseSlots_frame s ids) :)
@[simp] theorem raiseSlots_settings (s : State) (ids : List SlotId) : (s.raiseSlots ids).settings = s.settings :=
  (congrArg State.settings (raiseSlots_frame s ids) :)
@[simp] theorem raiseSlots_lanes (s : State) (ids : List SlotId) : (s.raiseSlots ids).lanes = s.lanes :=
  (congrArg State.lanes (raiseSlots_frame s ids) :)
@[simp] theorem raiseSlots_laneSettings (s : State) (ids : List SlotId) : (s.raiseSlots ids).laneSettings = s.laneSettings :=
  (congrArg State.laneSettings (raiseSlots_frame s ids) :)
@[simp] theorem raiseSlots_engines (s : State) (ids : List SlotId) : (s.raiseSlots ids).engines = s.engines :=
  (congrArg State.engines (raiseSlots_frame s ids) :)
@[simp] theorem raiseSlots_lastServed (s : State) (ids : List SlotId) : (s.raiseSlots ids).lastServed = s.lastServed :=
  (congrArg State.lastServed (raiseSlots_frame s ids) :)
@[simp] theorem raiseSlots_locks (s : State) (ids : List SlotId) : (s.raiseSlots ids).locks = s.locks :=
  (congrArg State.locks (raiseSlots_frame s ids) :)
@[simp] theorem raiseSlots_tariff (s : State) (ids : List SlotId) : (s.raiseSlots ids).tariff = s.tariff :=
  (congrArg State.tariff (raiseSlots_frame s ids) :)
@[simp] theorem raiseSlots_cipher (s : State) (ids : List SlotId) : (s.raiseSlots ids).cipher = s.cipher :=
  (congrArg State.cipher (raiseSlots_frame s ids) :)
@[simp] theorem raiseSlots_grantKey (s : State) (ids : List SlotId) : (s.raiseSlots ids).grantKey = s.grantKey :=
  (congrArg State.grantKey (raiseSlots_frame s ids) :)
@[simp] theorem raiseSlots_authority (s : State) (ids : List SlotId) : (s.raiseSlots ids).authority = s.authority :=
  (congrArg State.authority (raiseSlots_frame s ids) :)
@[simp] theorem raiseSlots_store (s : State) (ids : List SlotId) : (s.raiseSlots ids).store = s.store :=
  (congrArg State.store (raiseSlots_frame s ids) :)
@[simp] theorem raiseSlots_memory (s : State) (ids : List SlotId) : (s.raiseSlots ids).memory = s.memory :=
  (congrArg State.memory (raiseSlots_frame s ids) :)

/-! ### lowerSlots -/

theorem lowerSlots_frame (s : State) (ids : List SlotId) :
    s.lowerSlots ids = { s with slots := (s.lowerSlots ids).slots } := by
  unfold State.lowerSlots
  induction ids generalizing s with
  | nil => rfl
  | cons i rest ih => rw [List.foldl_cons, ih]; rfl

@[simp] theorem lowerSlots_pending (s : State) (ids : List SlotId) : (s.lowerSlots ids).pending = s.pending :=
  (congrArg State.pending (lowerSlots_frame s ids) :)
@[simp] theorem lowerSlots_mainsOk (s : State) (ids : List SlotId) : (s.lowerSlots ids).mainsOk = s.mainsOk :=
  (congrArg State.mainsOk (lowerSlots_frame s ids) :)
@[simp] theorem lowerSlots_pwrWarn (s : State) (ids : List SlotId) : (s.lowerSlots ids).pwrWarn = s.pwrWarn :=
  (congrArg State.pwrWarn (lowerSlots_frame s ids) :)
@[simp] theorem lowerSlots_resetHeld (s : State) (ids : List SlotId) : (s.lowerSlots ids).resetHeld = s.resetHeld :=
  (congrArg State.resetHeld (lowerSlots_frame s ids) :)
@[simp] theorem lowerSlots_supply (s : State) (ids : List SlotId) : (s.lowerSlots ids).supply = s.supply :=
  (congrArg State.supply (lowerSlots_frame s ids) :)
@[simp] theorem lowerSlots_office (s : State) (ids : List SlotId) : (s.lowerSlots ids).office = s.office :=
  (congrArg State.office (lowerSlots_frame s ids) :)
@[simp] theorem lowerSlots_faultRecord (s : State) (ids : List SlotId) : (s.lowerSlots ids).faultRecord = s.faultRecord :=
  (congrArg State.faultRecord (lowerSlots_frame s ids) :)
@[simp] theorem lowerSlots_exchange (s : State) (ids : List SlotId) : (s.lowerSlots ids).exchange = s.exchange :=
  (congrArg State.exchange (lowerSlots_frame s ids) :)
@[simp] theorem lowerSlots_events (s : State) (ids : List SlotId) : (s.lowerSlots ids).events = s.events :=
  (congrArg State.events (lowerSlots_frame s ids) :)
@[simp] theorem lowerSlots_settings (s : State) (ids : List SlotId) : (s.lowerSlots ids).settings = s.settings :=
  (congrArg State.settings (lowerSlots_frame s ids) :)
@[simp] theorem lowerSlots_lanes (s : State) (ids : List SlotId) : (s.lowerSlots ids).lanes = s.lanes :=
  (congrArg State.lanes (lowerSlots_frame s ids) :)
@[simp] theorem lowerSlots_laneSettings (s : State) (ids : List SlotId) : (s.lowerSlots ids).laneSettings = s.laneSettings :=
  (congrArg State.laneSettings (lowerSlots_frame s ids) :)
@[simp] theorem lowerSlots_engines (s : State) (ids : List SlotId) : (s.lowerSlots ids).engines = s.engines :=
  (congrArg State.engines (lowerSlots_frame s ids) :)
@[simp] theorem lowerSlots_lastServed (s : State) (ids : List SlotId) : (s.lowerSlots ids).lastServed = s.lastServed :=
  (congrArg State.lastServed (lowerSlots_frame s ids) :)
@[simp] theorem lowerSlots_locks (s : State) (ids : List SlotId) : (s.lowerSlots ids).locks = s.locks :=
  (congrArg State.locks (lowerSlots_frame s ids) :)
@[simp] theorem lowerSlots_tariff (s : State) (ids : List SlotId) : (s.lowerSlots ids).tariff = s.tariff :=
  (congrArg State.tariff (lowerSlots_frame s ids) :)
@[simp] theorem lowerSlots_cipher (s : State) (ids : List SlotId) : (s.lowerSlots ids).cipher = s.cipher :=
  (congrArg State.cipher (lowerSlots_frame s ids) :)
@[simp] theorem lowerSlots_grantKey (s : State) (ids : List SlotId) : (s.lowerSlots ids).grantKey = s.grantKey :=
  (congrArg State.grantKey (lowerSlots_frame s ids) :)
@[simp] theorem lowerSlots_authority (s : State) (ids : List SlotId) : (s.lowerSlots ids).authority = s.authority :=
  (congrArg State.authority (lowerSlots_frame s ids) :)
@[simp] theorem lowerSlots_store (s : State) (ids : List SlotId) : (s.lowerSlots ids).store = s.store :=
  (congrArg State.store (lowerSlots_frame s ids) :)
@[simp] theorem lowerSlots_memory (s : State) (ids : List SlotId) : (s.lowerSlots ids).memory = s.memory :=
  (congrArg State.memory (lowerSlots_frame s ids) :)

/-! ### reserve -/

theorem reserve_frame (s : State) (n : Nat) :
    s.reserve n = { s with events := (s.reserve n).events, authority := (s.reserve n).authority } := by
  unfold State.reserve State.noteAuthority; split <;> rfl

@[simp] theorem reserve_pending (s : State) (n : Nat) : (s.reserve n).pending = s.pending :=
  (congrArg State.pending (reserve_frame s n) :)
@[simp] theorem reserve_mainsOk (s : State) (n : Nat) : (s.reserve n).mainsOk = s.mainsOk :=
  (congrArg State.mainsOk (reserve_frame s n) :)
@[simp] theorem reserve_pwrWarn (s : State) (n : Nat) : (s.reserve n).pwrWarn = s.pwrWarn :=
  (congrArg State.pwrWarn (reserve_frame s n) :)
@[simp] theorem reserve_resetHeld (s : State) (n : Nat) : (s.reserve n).resetHeld = s.resetHeld :=
  (congrArg State.resetHeld (reserve_frame s n) :)
@[simp] theorem reserve_supply (s : State) (n : Nat) : (s.reserve n).supply = s.supply :=
  (congrArg State.supply (reserve_frame s n) :)
@[simp] theorem reserve_office (s : State) (n : Nat) : (s.reserve n).office = s.office :=
  (congrArg State.office (reserve_frame s n) :)
@[simp] theorem reserve_faultRecord (s : State) (n : Nat) : (s.reserve n).faultRecord = s.faultRecord :=
  (congrArg State.faultRecord (reserve_frame s n) :)
@[simp] theorem reserve_exchange (s : State) (n : Nat) : (s.reserve n).exchange = s.exchange :=
  (congrArg State.exchange (reserve_frame s n) :)
@[simp] theorem reserve_settings (s : State) (n : Nat) : (s.reserve n).settings = s.settings :=
  (congrArg State.settings (reserve_frame s n) :)
@[simp] theorem reserve_lanes (s : State) (n : Nat) : (s.reserve n).lanes = s.lanes :=
  (congrArg State.lanes (reserve_frame s n) :)
@[simp] theorem reserve_laneSettings (s : State) (n : Nat) : (s.reserve n).laneSettings = s.laneSettings :=
  (congrArg State.laneSettings (reserve_frame s n) :)
@[simp] theorem reserve_engines (s : State) (n : Nat) : (s.reserve n).engines = s.engines :=
  (congrArg State.engines (reserve_frame s n) :)
@[simp] theorem reserve_lastServed (s : State) (n : Nat) : (s.reserve n).lastServed = s.lastServed :=
  (congrArg State.lastServed (reserve_frame s n) :)
@[simp] theorem reserve_locks (s : State) (n : Nat) : (s.reserve n).locks = s.locks :=
  (congrArg State.locks (reserve_frame s n) :)
@[simp] theorem reserve_tariff (s : State) (n : Nat) : (s.reserve n).tariff = s.tariff :=
  (congrArg State.tariff (reserve_frame s n) :)
@[simp] theorem reserve_slots (s : State) (n : Nat) : (s.reserve n).slots = s.slots :=
  (congrArg State.slots (reserve_frame s n) :)
@[simp] theorem reserve_cipher (s : State) (n : Nat) : (s.reserve n).cipher = s.cipher :=
  (congrArg State.cipher (reserve_frame s n) :)
@[simp] theorem reserve_grantKey (s : State) (n : Nat) : (s.reserve n).grantKey = s.grantKey :=
  (congrArg State.grantKey (reserve_frame s n) :)
@[simp] theorem reserve_store (s : State) (n : Nat) : (s.reserve n).store = s.store :=
  (congrArg State.store (reserve_frame s n) :)
@[simp] theorem reserve_memory (s : State) (n : Nat) : (s.reserve n).memory = s.memory :=
  (congrArg State.memory (reserve_frame s n) :)

/-! ### reportRefused -/

theorem reportRefused_frame (s : State) (l : LaneId) (c : RefusalCode) :
    s.reportRefused l c = { s with events := (s.reportRefused l c).events, lanes := (s.reportRefused l c).lanes } := by
  unfold State.reportRefused
  dsimp only
  split
  · rw [raiseCount_frame]; rfl
  · rfl

@[simp] theorem reportRefused_pending (s : State) (l : LaneId) (c : RefusalCode) : (s.reportRefused l c).pending = s.pending :=
  (congrArg State.pending (reportRefused_frame s l c) :)
@[simp] theorem reportRefused_mainsOk (s : State) (l : LaneId) (c : RefusalCode) : (s.reportRefused l c).mainsOk = s.mainsOk :=
  (congrArg State.mainsOk (reportRefused_frame s l c) :)
@[simp] theorem reportRefused_pwrWarn (s : State) (l : LaneId) (c : RefusalCode) : (s.reportRefused l c).pwrWarn = s.pwrWarn :=
  (congrArg State.pwrWarn (reportRefused_frame s l c) :)
@[simp] theorem reportRefused_resetHeld (s : State) (l : LaneId) (c : RefusalCode) : (s.reportRefused l c).resetHeld = s.resetHeld :=
  (congrArg State.resetHeld (reportRefused_frame s l c) :)
@[simp] theorem reportRefused_supply (s : State) (l : LaneId) (c : RefusalCode) : (s.reportRefused l c).supply = s.supply :=
  (congrArg State.supply (reportRefused_frame s l c) :)
@[simp] theorem reportRefused_office (s : State) (l : LaneId) (c : RefusalCode) : (s.reportRefused l c).office = s.office :=
  (congrArg State.office (reportRefused_frame s l c) :)
@[simp] theorem reportRefused_faultRecord (s : State) (l : LaneId) (c : RefusalCode) : (s.reportRefused l c).faultRecord = s.faultRecord :=
  (congrArg State.faultRecord (reportRefused_frame s l c) :)
@[simp] theorem reportRefused_exchange (s : State) (l : LaneId) (c : RefusalCode) : (s.reportRefused l c).exchange = s.exchange :=
  (congrArg State.exchange (reportRefused_frame s l c) :)
@[simp] theorem reportRefused_settings (s : State) (l : LaneId) (c : RefusalCode) : (s.reportRefused l c).settings = s.settings :=
  (congrArg State.settings (reportRefused_frame s l c) :)
@[simp] theorem reportRefused_laneSettings (s : State) (l : LaneId) (c : RefusalCode) : (s.reportRefused l c).laneSettings = s.laneSettings :=
  (congrArg State.laneSettings (reportRefused_frame s l c) :)
@[simp] theorem reportRefused_engines (s : State) (l : LaneId) (c : RefusalCode) : (s.reportRefused l c).engines = s.engines :=
  (congrArg State.engines (reportRefused_frame s l c) :)
@[simp] theorem reportRefused_lastServed (s : State) (l : LaneId) (c : RefusalCode) : (s.reportRefused l c).lastServed = s.lastServed :=
  (congrArg State.lastServed (reportRefused_frame s l c) :)
@[simp] theorem reportRefused_locks (s : State) (l : LaneId) (c : RefusalCode) : (s.reportRefused l c).locks = s.locks :=
  (congrArg State.locks (reportRefused_frame s l c) :)
@[simp] theorem reportRefused_tariff (s : State) (l : LaneId) (c : RefusalCode) : (s.reportRefused l c).tariff = s.tariff :=
  (congrArg State.tariff (reportRefused_frame s l c) :)
@[simp] theorem reportRefused_slots (s : State) (l : LaneId) (c : RefusalCode) : (s.reportRefused l c).slots = s.slots :=
  (congrArg State.slots (reportRefused_frame s l c) :)
@[simp] theorem reportRefused_cipher (s : State) (l : LaneId) (c : RefusalCode) : (s.reportRefused l c).cipher = s.cipher :=
  (congrArg State.cipher (reportRefused_frame s l c) :)
@[simp] theorem reportRefused_grantKey (s : State) (l : LaneId) (c : RefusalCode) : (s.reportRefused l c).grantKey = s.grantKey :=
  (congrArg State.grantKey (reportRefused_frame s l c) :)
@[simp] theorem reportRefused_authority (s : State) (l : LaneId) (c : RefusalCode) : (s.reportRefused l c).authority = s.authority :=
  (congrArg State.authority (reportRefused_frame s l c) :)
@[simp] theorem reportRefused_store (s : State) (l : LaneId) (c : RefusalCode) : (s.reportRefused l c).store = s.store :=
  (congrArg State.store (reportRefused_frame s l c) :)
@[simp] theorem reportRefused_memory (s : State) (l : LaneId) (c : RefusalCode) : (s.reportRefused l c).memory = s.memory :=
  (congrArg State.memory (reportRefused_frame s l c) :)

/-! ### endRequest -/

theorem endRequest_frame (s : State) (e : EngineId) (b : BusyEngine) :
    s.endRequest e b = { s with lanes := (s.endRequest e b).lanes, engines := (s.endRequest e b).engines } := rfl

@[simp] theorem endRequest_pending (s : State) (e : EngineId) (b : BusyEngine) : (s.endRequest e b).pending = s.pending :=
  (congrArg State.pending (endRequest_frame s e b) :)
@[simp] theorem endRequest_mainsOk (s : State) (e : EngineId) (b : BusyEngine) : (s.endRequest e b).mainsOk = s.mainsOk :=
  (congrArg State.mainsOk (endRequest_frame s e b) :)
@[simp] theorem endRequest_pwrWarn (s : State) (e : EngineId) (b : BusyEngine) : (s.endRequest e b).pwrWarn = s.pwrWarn :=
  (congrArg State.pwrWarn (endRequest_frame s e b) :)
@[simp] theorem endRequest_resetHeld (s : State) (e : EngineId) (b : BusyEngine) : (s.endRequest e b).resetHeld = s.resetHeld :=
  (congrArg State.resetHeld (endRequest_frame s e b) :)
@[simp] theorem endRequest_supply (s : State) (e : EngineId) (b : BusyEngine) : (s.endRequest e b).supply = s.supply :=
  (congrArg State.supply (endRequest_frame s e b) :)
@[simp] theorem endRequest_office (s : State) (e : EngineId) (b : BusyEngine) : (s.endRequest e b).office = s.office :=
  (congrArg State.office (endRequest_frame s e b) :)
@[simp] theorem endRequest_faultRecord (s : State) (e : EngineId) (b : BusyEngine) : (s.endRequest e b).faultRecord = s.faultRecord :=
  (congrArg State.faultRecord (endRequest_frame s e b) :)
@[simp] theorem endRequest_exchange (s : State) (e : EngineId) (b : BusyEngine) : (s.endRequest e b).exchange = s.exchange :=
  (congrArg State.exchange (endRequest_frame s e b) :)
@[simp] theorem endRequest_events (s : State) (e : EngineId) (b : BusyEngine) : (s.endRequest e b).events = s.events :=
  (congrArg State.events (endRequest_frame s e b) :)
@[simp] theorem endRequest_settings (s : State) (e : EngineId) (b : BusyEngine) : (s.endRequest e b).settings = s.settings :=
  (congrArg State.settings (endRequest_frame s e b) :)
@[simp] theorem endRequest_laneSettings (s : State) (e : EngineId) (b : BusyEngine) : (s.endRequest e b).laneSettings = s.laneSettings :=
  (congrArg State.laneSettings (endRequest_frame s e b) :)
@[simp] theorem endRequest_lastServed (s : State) (e : EngineId) (b : BusyEngine) : (s.endRequest e b).lastServed = s.lastServed :=
  (congrArg State.lastServed (endRequest_frame s e b) :)
@[simp] theorem endRequest_locks (s : State) (e : EngineId) (b : BusyEngine) : (s.endRequest e b).locks = s.locks :=
  (congrArg State.locks (endRequest_frame s e b) :)
@[simp] theorem endRequest_tariff (s : State) (e : EngineId) (b : BusyEngine) : (s.endRequest e b).tariff = s.tariff :=
  (congrArg State.tariff (endRequest_frame s e b) :)
@[simp] theorem endRequest_slots (s : State) (e : EngineId) (b : BusyEngine) : (s.endRequest e b).slots = s.slots :=
  (congrArg State.slots (endRequest_frame s e b) :)
@[simp] theorem endRequest_cipher (s : State) (e : EngineId) (b : BusyEngine) : (s.endRequest e b).cipher = s.cipher :=
  (congrArg State.cipher (endRequest_frame s e b) :)
@[simp] theorem endRequest_grantKey (s : State) (e : EngineId) (b : BusyEngine) : (s.endRequest e b).grantKey = s.grantKey :=
  (congrArg State.grantKey (endRequest_frame s e b) :)
@[simp] theorem endRequest_authority (s : State) (e : EngineId) (b : BusyEngine) : (s.endRequest e b).authority = s.authority :=
  (congrArg State.authority (endRequest_frame s e b) :)
@[simp] theorem endRequest_store (s : State) (e : EngineId) (b : BusyEngine) : (s.endRequest e b).store = s.store :=
  (congrArg State.store (endRequest_frame s e b) :)
@[simp] theorem endRequest_memory (s : State) (e : EngineId) (b : BusyEngine) : (s.endRequest e b).memory = s.memory :=
  (congrArg State.memory (endRequest_frame s e b) :)

/-! ### startItem -/

theorem startItem_frame (s : State) (e : EngineId) (b : BusyEngine) :
    s.startItem e b = { s with lanes := (s.startItem e b).lanes, engines := (s.startItem e b).engines, locks := (s.startItem e b).locks, store := (s.startItem e b).store } := by
  unfold State.startItem
  split
  · rw [claim_frame]; rfl
  · rfl

@[simp] theorem startItem_pending (s : State) (e : EngineId) (b : BusyEngine) : (s.startItem e b).pending = s.pending :=
  (congrArg State.pending (startItem_frame s e b) :)
@[simp] theorem startItem_mainsOk (s : State) (e : EngineId) (b : BusyEngine) : (s.startItem e b).mainsOk = s.mainsOk :=
  (congrArg State.mainsOk (startItem_frame s e b) :)
@[simp] theorem startItem_pwrWarn (s : State) (e : EngineId) (b : BusyEngine) : (s.startItem e b).pwrWarn = s.pwrWarn :=
  (congrArg State.pwrWarn (startItem_frame s e b) :)
@[simp] theorem startItem_resetHeld (s : State) (e : EngineId) (b : BusyEngine) : (s.startItem e b).resetHeld = s.resetHeld :=
  (congrArg State.resetHeld (startItem_frame s e b) :)
@[simp] theorem startItem_supply (s : State) (e : EngineId) (b : BusyEngine) : (s.startItem e b).supply = s.supply :=
  (congrArg State.supply (startItem_frame s e b) :)
@[simp] theorem startItem_office (s : State) (e : EngineId) (b : BusyEngine) : (s.startItem e b).office = s.office :=
  (congrArg State.office (startItem_frame s e b) :)
@[simp] theorem startItem_faultRecord (s : State) (e : EngineId) (b : BusyEngine) : (s.startItem e b).faultRecord = s.faultRecord :=
  (congrArg State.faultRecord (startItem_frame s e b) :)
@[simp] theorem startItem_exchange (s : State) (e : EngineId) (b : BusyEngine) : (s.startItem e b).exchange = s.exchange :=
  (congrArg State.exchange (startItem_frame s e b) :)
@[simp] theorem startItem_events (s : State) (e : EngineId) (b : BusyEngine) : (s.startItem e b).events = s.events :=
  (congrArg State.events (startItem_frame s e b) :)
@[simp] theorem startItem_settings (s : State) (e : EngineId) (b : BusyEngine) : (s.startItem e b).settings = s.settings :=
  (congrArg State.settings (startItem_frame s e b) :)
@[simp] theorem startItem_laneSettings (s : State) (e : EngineId) (b : BusyEngine) : (s.startItem e b).laneSettings = s.laneSettings :=
  (congrArg State.laneSettings (startItem_frame s e b) :)
@[simp] theorem startItem_lastServed (s : State) (e : EngineId) (b : BusyEngine) : (s.startItem e b).lastServed = s.lastServed :=
  (congrArg State.lastServed (startItem_frame s e b) :)
@[simp] theorem startItem_tariff (s : State) (e : EngineId) (b : BusyEngine) : (s.startItem e b).tariff = s.tariff :=
  (congrArg State.tariff (startItem_frame s e b) :)
@[simp] theorem startItem_slots (s : State) (e : EngineId) (b : BusyEngine) : (s.startItem e b).slots = s.slots :=
  (congrArg State.slots (startItem_frame s e b) :)
@[simp] theorem startItem_cipher (s : State) (e : EngineId) (b : BusyEngine) : (s.startItem e b).cipher = s.cipher :=
  (congrArg State.cipher (startItem_frame s e b) :)
@[simp] theorem startItem_grantKey (s : State) (e : EngineId) (b : BusyEngine) : (s.startItem e b).grantKey = s.grantKey :=
  (congrArg State.grantKey (startItem_frame s e b) :)
@[simp] theorem startItem_authority (s : State) (e : EngineId) (b : BusyEngine) : (s.startItem e b).authority = s.authority :=
  (congrArg State.authority (startItem_frame s e b) :)
@[simp] theorem startItem_memory (s : State) (e : EngineId) (b : BusyEngine) : (s.startItem e b).memory = s.memory :=
  (congrArg State.memory (startItem_frame s e b) :)

/-! ### endItem -/

theorem endItem_frame (s : State) (e : EngineId) (b : BusyEngine) (o : ItemOutcome) :
    s.endItem e b o = { s with lanes := (s.endItem e b o).lanes, engines := (s.endItem e b o).engines, locks := (s.endItem e b o).locks, store := (s.endItem e b o).store } := by
  unfold State.endItem
  dsimp only
  split
  · rfl
  · split
    · rfl
    · rw [startItem_frame]

@[simp] theorem endItem_pending (s : State) (e : EngineId) (b : BusyEngine) (o : ItemOutcome) : (s.endItem e b o).pending = s.pending :=
  (congrArg State.pending (endItem_frame s e b o) :)
@[simp] theorem endItem_mainsOk (s : State) (e : EngineId) (b : BusyEngine) (o : ItemOutcome) : (s.endItem e b o).mainsOk = s.mainsOk :=
  (congrArg State.mainsOk (endItem_frame s e b o) :)
@[simp] theorem endItem_pwrWarn (s : State) (e : EngineId) (b : BusyEngine) (o : ItemOutcome) : (s.endItem e b o).pwrWarn = s.pwrWarn :=
  (congrArg State.pwrWarn (endItem_frame s e b o) :)
@[simp] theorem endItem_resetHeld (s : State) (e : EngineId) (b : BusyEngine) (o : ItemOutcome) : (s.endItem e b o).resetHeld = s.resetHeld :=
  (congrArg State.resetHeld (endItem_frame s e b o) :)
@[simp] theorem endItem_supply (s : State) (e : EngineId) (b : BusyEngine) (o : ItemOutcome) : (s.endItem e b o).supply = s.supply :=
  (congrArg State.supply (endItem_frame s e b o) :)
@[simp] theorem endItem_office (s : State) (e : EngineId) (b : BusyEngine) (o : ItemOutcome) : (s.endItem e b o).office = s.office :=
  (congrArg State.office (endItem_frame s e b o) :)
@[simp] theorem endItem_faultRecord (s : State) (e : EngineId) (b : BusyEngine) (o : ItemOutcome) : (s.endItem e b o).faultRecord = s.faultRecord :=
  (congrArg State.faultRecord (endItem_frame s e b o) :)
@[simp] theorem endItem_exchange (s : State) (e : EngineId) (b : BusyEngine) (o : ItemOutcome) : (s.endItem e b o).exchange = s.exchange :=
  (congrArg State.exchange (endItem_frame s e b o) :)
@[simp] theorem endItem_events (s : State) (e : EngineId) (b : BusyEngine) (o : ItemOutcome) : (s.endItem e b o).events = s.events :=
  (congrArg State.events (endItem_frame s e b o) :)
@[simp] theorem endItem_settings (s : State) (e : EngineId) (b : BusyEngine) (o : ItemOutcome) : (s.endItem e b o).settings = s.settings :=
  (congrArg State.settings (endItem_frame s e b o) :)
@[simp] theorem endItem_laneSettings (s : State) (e : EngineId) (b : BusyEngine) (o : ItemOutcome) : (s.endItem e b o).laneSettings = s.laneSettings :=
  (congrArg State.laneSettings (endItem_frame s e b o) :)
@[simp] theorem endItem_lastServed (s : State) (e : EngineId) (b : BusyEngine) (o : ItemOutcome) : (s.endItem e b o).lastServed = s.lastServed :=
  (congrArg State.lastServed (endItem_frame s e b o) :)
@[simp] theorem endItem_tariff (s : State) (e : EngineId) (b : BusyEngine) (o : ItemOutcome) : (s.endItem e b o).tariff = s.tariff :=
  (congrArg State.tariff (endItem_frame s e b o) :)
@[simp] theorem endItem_slots (s : State) (e : EngineId) (b : BusyEngine) (o : ItemOutcome) : (s.endItem e b o).slots = s.slots :=
  (congrArg State.slots (endItem_frame s e b o) :)
@[simp] theorem endItem_cipher (s : State) (e : EngineId) (b : BusyEngine) (o : ItemOutcome) : (s.endItem e b o).cipher = s.cipher :=
  (congrArg State.cipher (endItem_frame s e b o) :)
@[simp] theorem endItem_grantKey (s : State) (e : EngineId) (b : BusyEngine) (o : ItemOutcome) : (s.endItem e b o).grantKey = s.grantKey :=
  (congrArg State.grantKey (endItem_frame s e b o) :)
@[simp] theorem endItem_authority (s : State) (e : EngineId) (b : BusyEngine) (o : ItemOutcome) : (s.endItem e b o).authority = s.authority :=
  (congrArg State.authority (endItem_frame s e b o) :)
@[simp] theorem endItem_memory (s : State) (e : EngineId) (b : BusyEngine) (o : ItemOutcome) : (s.endItem e b o).memory = s.memory :=
  (congrArg State.memory (endItem_frame s e b o) :)

/-! ### refuseItem -/

theorem refuseItem_frame (s : State) (e : EngineId) (b : BusyEngine) (c : RefusalCode) :
    s.refuseItem e b c = { s with events := (s.refuseItem e b c).events, lanes := (s.refuseItem e b c).lanes, engines := (s.refuseItem e b c).engines, locks := (s.refuseItem e b c).locks, store := (s.refuseItem e b c).store } := by
  unfold State.refuseItem; rw [endItem_frame, reportRefused_frame]; rfl

@[simp] theorem refuseItem_pending (s : State) (e : EngineId) (b : BusyEngine) (c : RefusalCode) : (s.refuseItem e b c).pending = s.pending :=
  (congrArg State.pending (refuseItem_frame s e b c) :)
@[simp] theorem refuseItem_mainsOk (s : State) (e : EngineId) (b : BusyEngine) (c : RefusalCode) : (s.refuseItem e b c).mainsOk = s.mainsOk :=
  (congrArg State.mainsOk (refuseItem_frame s e b c) :)
@[simp] theorem refuseItem_pwrWarn (s : State) (e : EngineId) (b : BusyEngine) (c : RefusalCode) : (s.refuseItem e b c).pwrWarn = s.pwrWarn :=
  (congrArg State.pwrWarn (refuseItem_frame s e b c) :)
@[simp] theorem refuseItem_resetHeld (s : State) (e : EngineId) (b : BusyEngine) (c : RefusalCode) : (s.refuseItem e b c).resetHeld = s.resetHeld :=
  (congrArg State.resetHeld (refuseItem_frame s e b c) :)
@[simp] theorem refuseItem_supply (s : State) (e : EngineId) (b : BusyEngine) (c : RefusalCode) : (s.refuseItem e b c).supply = s.supply :=
  (congrArg State.supply (refuseItem_frame s e b c) :)
@[simp] theorem refuseItem_office (s : State) (e : EngineId) (b : BusyEngine) (c : RefusalCode) : (s.refuseItem e b c).office = s.office :=
  (congrArg State.office (refuseItem_frame s e b c) :)
@[simp] theorem refuseItem_faultRecord (s : State) (e : EngineId) (b : BusyEngine) (c : RefusalCode) : (s.refuseItem e b c).faultRecord = s.faultRecord :=
  (congrArg State.faultRecord (refuseItem_frame s e b c) :)
@[simp] theorem refuseItem_exchange (s : State) (e : EngineId) (b : BusyEngine) (c : RefusalCode) : (s.refuseItem e b c).exchange = s.exchange :=
  (congrArg State.exchange (refuseItem_frame s e b c) :)
@[simp] theorem refuseItem_settings (s : State) (e : EngineId) (b : BusyEngine) (c : RefusalCode) : (s.refuseItem e b c).settings = s.settings :=
  (congrArg State.settings (refuseItem_frame s e b c) :)
@[simp] theorem refuseItem_laneSettings (s : State) (e : EngineId) (b : BusyEngine) (c : RefusalCode) : (s.refuseItem e b c).laneSettings = s.laneSettings :=
  (congrArg State.laneSettings (refuseItem_frame s e b c) :)
@[simp] theorem refuseItem_lastServed (s : State) (e : EngineId) (b : BusyEngine) (c : RefusalCode) : (s.refuseItem e b c).lastServed = s.lastServed :=
  (congrArg State.lastServed (refuseItem_frame s e b c) :)
@[simp] theorem refuseItem_tariff (s : State) (e : EngineId) (b : BusyEngine) (c : RefusalCode) : (s.refuseItem e b c).tariff = s.tariff :=
  (congrArg State.tariff (refuseItem_frame s e b c) :)
@[simp] theorem refuseItem_slots (s : State) (e : EngineId) (b : BusyEngine) (c : RefusalCode) : (s.refuseItem e b c).slots = s.slots :=
  (congrArg State.slots (refuseItem_frame s e b c) :)
@[simp] theorem refuseItem_cipher (s : State) (e : EngineId) (b : BusyEngine) (c : RefusalCode) : (s.refuseItem e b c).cipher = s.cipher :=
  (congrArg State.cipher (refuseItem_frame s e b c) :)
@[simp] theorem refuseItem_grantKey (s : State) (e : EngineId) (b : BusyEngine) (c : RefusalCode) : (s.refuseItem e b c).grantKey = s.grantKey :=
  (congrArg State.grantKey (refuseItem_frame s e b c) :)
@[simp] theorem refuseItem_authority (s : State) (e : EngineId) (b : BusyEngine) (c : RefusalCode) : (s.refuseItem e b c).authority = s.authority :=
  (congrArg State.authority (refuseItem_frame s e b c) :)
@[simp] theorem refuseItem_memory (s : State) (e : EngineId) (b : BusyEngine) (c : RefusalCode) : (s.refuseItem e b c).memory = s.memory :=
  (congrArg State.memory (refuseItem_frame s e b c) :)

/-! ### continueTokens -/

theorem continueTokens_frame (s : State) (e : EngineId) (b : BusyEngine) :
    s.continueTokens e b = { s with engines := (s.continueTokens e b).engines, cipher := (s.continueTokens e b).cipher, store := (s.continueTokens e b).store } := by
  unfold State.continueTokens
  split
  · rfl
  · rw [place_frame]; rfl
  · rfl

@[simp] theorem continueTokens_pending (s : State) (e : EngineId) (b : BusyEngine) : (s.continueTokens e b).pending = s.pending :=
  (congrArg State.pending (continueTokens_frame s e b) :)
@[simp] theorem continueTokens_mainsOk (s : State) (e : EngineId) (b : BusyEngine) : (s.continueTokens e b).mainsOk = s.mainsOk :=
  (congrArg State.mainsOk (continueTokens_frame s e b) :)
@[simp] theorem continueTokens_pwrWarn (s : State) (e : EngineId) (b : BusyEngine) : (s.continueTokens e b).pwrWarn = s.pwrWarn :=
  (congrArg State.pwrWarn (continueTokens_frame s e b) :)
@[simp] theorem continueTokens_resetHeld (s : State) (e : EngineId) (b : BusyEngine) : (s.continueTokens e b).resetHeld = s.resetHeld :=
  (congrArg State.resetHeld (continueTokens_frame s e b) :)
@[simp] theorem continueTokens_supply (s : State) (e : EngineId) (b : BusyEngine) : (s.continueTokens e b).supply = s.supply :=
  (congrArg State.supply (continueTokens_frame s e b) :)
@[simp] theorem continueTokens_office (s : State) (e : EngineId) (b : BusyEngine) : (s.continueTokens e b).office = s.office :=
  (congrArg State.office (continueTokens_frame s e b) :)
@[simp] theorem continueTokens_faultRecord (s : State) (e : EngineId) (b : BusyEngine) : (s.continueTokens e b).faultRecord = s.faultRecord :=
  (congrArg State.faultRecord (continueTokens_frame s e b) :)
@[simp] theorem continueTokens_exchange (s : State) (e : EngineId) (b : BusyEngine) : (s.continueTokens e b).exchange = s.exchange :=
  (congrArg State.exchange (continueTokens_frame s e b) :)
@[simp] theorem continueTokens_events (s : State) (e : EngineId) (b : BusyEngine) : (s.continueTokens e b).events = s.events :=
  (congrArg State.events (continueTokens_frame s e b) :)
@[simp] theorem continueTokens_settings (s : State) (e : EngineId) (b : BusyEngine) : (s.continueTokens e b).settings = s.settings :=
  (congrArg State.settings (continueTokens_frame s e b) :)
@[simp] theorem continueTokens_lanes (s : State) (e : EngineId) (b : BusyEngine) : (s.continueTokens e b).lanes = s.lanes :=
  (congrArg State.lanes (continueTokens_frame s e b) :)
@[simp] theorem continueTokens_laneSettings (s : State) (e : EngineId) (b : BusyEngine) : (s.continueTokens e b).laneSettings = s.laneSettings :=
  (congrArg State.laneSettings (continueTokens_frame s e b) :)
@[simp] theorem continueTokens_lastServed (s : State) (e : EngineId) (b : BusyEngine) : (s.continueTokens e b).lastServed = s.lastServed :=
  (congrArg State.lastServed (continueTokens_frame s e b) :)
@[simp] theorem continueTokens_locks (s : State) (e : EngineId) (b : BusyEngine) : (s.continueTokens e b).locks = s.locks :=
  (congrArg State.locks (continueTokens_frame s e b) :)
@[simp] theorem continueTokens_tariff (s : State) (e : EngineId) (b : BusyEngine) : (s.continueTokens e b).tariff = s.tariff :=
  (congrArg State.tariff (continueTokens_frame s e b) :)
@[simp] theorem continueTokens_slots (s : State) (e : EngineId) (b : BusyEngine) : (s.continueTokens e b).slots = s.slots :=
  (congrArg State.slots (continueTokens_frame s e b) :)
@[simp] theorem continueTokens_grantKey (s : State) (e : EngineId) (b : BusyEngine) : (s.continueTokens e b).grantKey = s.grantKey :=
  (congrArg State.grantKey (continueTokens_frame s e b) :)
@[simp] theorem continueTokens_authority (s : State) (e : EngineId) (b : BusyEngine) : (s.continueTokens e b).authority = s.authority :=
  (congrArg State.authority (continueTokens_frame s e b) :)
@[simp] theorem continueTokens_memory (s : State) (e : EngineId) (b : BusyEngine) : (s.continueTokens e b).memory = s.memory :=
  (congrArg State.memory (continueTokens_frame s e b) :)

/-! ### clearReserved -/

theorem clearReserved_frame (s : State) (e : EngineId) :
    s.clearReserved e = { s with engines := (s.clearReserved e).engines } := by
  unfold State.clearReserved; split <;> rfl

@[simp] theorem clearReserved_pending (s : State) (e : EngineId) : (s.clearReserved e).pending = s.pending :=
  (congrArg State.pending (clearReserved_frame s e) :)
@[simp] theorem clearReserved_mainsOk (s : State) (e : EngineId) : (s.clearReserved e).mainsOk = s.mainsOk :=
  (congrArg State.mainsOk (clearReserved_frame s e) :)
@[simp] theorem clearReserved_pwrWarn (s : State) (e : EngineId) : (s.clearReserved e).pwrWarn = s.pwrWarn :=
  (congrArg State.pwrWarn (clearReserved_frame s e) :)
@[simp] theorem clearReserved_resetHeld (s : State) (e : EngineId) : (s.clearReserved e).resetHeld = s.resetHeld :=
  (congrArg State.resetHeld (clearReserved_frame s e) :)
@[simp] theorem clearReserved_supply (s : State) (e : EngineId) : (s.clearReserved e).supply = s.supply :=
  (congrArg State.supply (clearReserved_frame s e) :)
@[simp] theorem clearReserved_office (s : State) (e : EngineId) : (s.clearReserved e).office = s.office :=
  (congrArg State.office (clearReserved_frame s e) :)
@[simp] theorem clearReserved_faultRecord (s : State) (e : EngineId) : (s.clearReserved e).faultRecord = s.faultRecord :=
  (congrArg State.faultRecord (clearReserved_frame s e) :)
@[simp] theorem clearReserved_exchange (s : State) (e : EngineId) : (s.clearReserved e).exchange = s.exchange :=
  (congrArg State.exchange (clearReserved_frame s e) :)
@[simp] theorem clearReserved_events (s : State) (e : EngineId) : (s.clearReserved e).events = s.events :=
  (congrArg State.events (clearReserved_frame s e) :)
@[simp] theorem clearReserved_settings (s : State) (e : EngineId) : (s.clearReserved e).settings = s.settings :=
  (congrArg State.settings (clearReserved_frame s e) :)
@[simp] theorem clearReserved_lanes (s : State) (e : EngineId) : (s.clearReserved e).lanes = s.lanes :=
  (congrArg State.lanes (clearReserved_frame s e) :)
@[simp] theorem clearReserved_laneSettings (s : State) (e : EngineId) : (s.clearReserved e).laneSettings = s.laneSettings :=
  (congrArg State.laneSettings (clearReserved_frame s e) :)
@[simp] theorem clearReserved_lastServed (s : State) (e : EngineId) : (s.clearReserved e).lastServed = s.lastServed :=
  (congrArg State.lastServed (clearReserved_frame s e) :)
@[simp] theorem clearReserved_locks (s : State) (e : EngineId) : (s.clearReserved e).locks = s.locks :=
  (congrArg State.locks (clearReserved_frame s e) :)
@[simp] theorem clearReserved_tariff (s : State) (e : EngineId) : (s.clearReserved e).tariff = s.tariff :=
  (congrArg State.tariff (clearReserved_frame s e) :)
@[simp] theorem clearReserved_slots (s : State) (e : EngineId) : (s.clearReserved e).slots = s.slots :=
  (congrArg State.slots (clearReserved_frame s e) :)
@[simp] theorem clearReserved_cipher (s : State) (e : EngineId) : (s.clearReserved e).cipher = s.cipher :=
  (congrArg State.cipher (clearReserved_frame s e) :)
@[simp] theorem clearReserved_grantKey (s : State) (e : EngineId) : (s.clearReserved e).grantKey = s.grantKey :=
  (congrArg State.grantKey (clearReserved_frame s e) :)
@[simp] theorem clearReserved_authority (s : State) (e : EngineId) : (s.clearReserved e).authority = s.authority :=
  (congrArg State.authority (clearReserved_frame s e) :)
@[simp] theorem clearReserved_store (s : State) (e : EngineId) : (s.clearReserved e).store = s.store :=
  (congrArg State.store (clearReserved_frame s e) :)
@[simp] theorem clearReserved_memory (s : State) (e : EngineId) : (s.clearReserved e).memory = s.memory :=
  (congrArg State.memory (clearReserved_frame s e) :)

/-! ### createRecord -/

theorem createRecord_frame (s : State) (n : Nat) (r : MeterRecord) :
    s.createRecord n r = { s with store := (s.createRecord n r).store, memory := (s.createRecord n r).memory } := rfl

@[simp] theorem createRecord_pending (s : State) (n : Nat) (r : MeterRecord) : (s.createRecord n r).pending = s.pending :=
  (congrArg State.pending (createRecord_frame s n r) :)
@[simp] theorem createRecord_mainsOk (s : State) (n : Nat) (r : MeterRecord) : (s.createRecord n r).mainsOk = s.mainsOk :=
  (congrArg State.mainsOk (createRecord_frame s n r) :)
@[simp] theorem createRecord_pwrWarn (s : State) (n : Nat) (r : MeterRecord) : (s.createRecord n r).pwrWarn = s.pwrWarn :=
  (congrArg State.pwrWarn (createRecord_frame s n r) :)
@[simp] theorem createRecord_resetHeld (s : State) (n : Nat) (r : MeterRecord) : (s.createRecord n r).resetHeld = s.resetHeld :=
  (congrArg State.resetHeld (createRecord_frame s n r) :)
@[simp] theorem createRecord_supply (s : State) (n : Nat) (r : MeterRecord) : (s.createRecord n r).supply = s.supply :=
  (congrArg State.supply (createRecord_frame s n r) :)
@[simp] theorem createRecord_office (s : State) (n : Nat) (r : MeterRecord) : (s.createRecord n r).office = s.office :=
  (congrArg State.office (createRecord_frame s n r) :)
@[simp] theorem createRecord_faultRecord (s : State) (n : Nat) (r : MeterRecord) : (s.createRecord n r).faultRecord = s.faultRecord :=
  (congrArg State.faultRecord (createRecord_frame s n r) :)
@[simp] theorem createRecord_exchange (s : State) (n : Nat) (r : MeterRecord) : (s.createRecord n r).exchange = s.exchange :=
  (congrArg State.exchange (createRecord_frame s n r) :)
@[simp] theorem createRecord_events (s : State) (n : Nat) (r : MeterRecord) : (s.createRecord n r).events = s.events :=
  (congrArg State.events (createRecord_frame s n r) :)
@[simp] theorem createRecord_settings (s : State) (n : Nat) (r : MeterRecord) : (s.createRecord n r).settings = s.settings :=
  (congrArg State.settings (createRecord_frame s n r) :)
@[simp] theorem createRecord_lanes (s : State) (n : Nat) (r : MeterRecord) : (s.createRecord n r).lanes = s.lanes :=
  (congrArg State.lanes (createRecord_frame s n r) :)
@[simp] theorem createRecord_laneSettings (s : State) (n : Nat) (r : MeterRecord) : (s.createRecord n r).laneSettings = s.laneSettings :=
  (congrArg State.laneSettings (createRecord_frame s n r) :)
@[simp] theorem createRecord_engines (s : State) (n : Nat) (r : MeterRecord) : (s.createRecord n r).engines = s.engines :=
  (congrArg State.engines (createRecord_frame s n r) :)
@[simp] theorem createRecord_lastServed (s : State) (n : Nat) (r : MeterRecord) : (s.createRecord n r).lastServed = s.lastServed :=
  (congrArg State.lastServed (createRecord_frame s n r) :)
@[simp] theorem createRecord_locks (s : State) (n : Nat) (r : MeterRecord) : (s.createRecord n r).locks = s.locks :=
  (congrArg State.locks (createRecord_frame s n r) :)
@[simp] theorem createRecord_tariff (s : State) (n : Nat) (r : MeterRecord) : (s.createRecord n r).tariff = s.tariff :=
  (congrArg State.tariff (createRecord_frame s n r) :)
@[simp] theorem createRecord_slots (s : State) (n : Nat) (r : MeterRecord) : (s.createRecord n r).slots = s.slots :=
  (congrArg State.slots (createRecord_frame s n r) :)
@[simp] theorem createRecord_cipher (s : State) (n : Nat) (r : MeterRecord) : (s.createRecord n r).cipher = s.cipher :=
  (congrArg State.cipher (createRecord_frame s n r) :)
@[simp] theorem createRecord_grantKey (s : State) (n : Nat) (r : MeterRecord) : (s.createRecord n r).grantKey = s.grantKey :=
  (congrArg State.grantKey (createRecord_frame s n r) :)
@[simp] theorem createRecord_authority (s : State) (n : Nat) (r : MeterRecord) : (s.createRecord n r).authority = s.authority :=
  (congrArg State.authority (createRecord_frame s n r) :)

end Sys2Proof.Machine
end

