-- ==== Sys2Proof/Laws/Memory.lean ====
section
/-! SUPPORT. The laws of the sparse tables and of record memory: a read after a write, every other key left alone, and the
canonical form kept by every operation over record memory. -/

namespace Sys2Proof.Machine

open Sys2Proof

/-! ## Sparse tables -/

theorem sparseFind_set_same {α : Type} (t : Sparse α) (n : Nat) (v : α) : sparseFind (sparseSet t n v) n = some v := by
  induction t with
  | nil => simp [sparseSet, sparseFind]
  | cons e rest ih =>
    obtain ⟨k, w⟩ := e
    unfold sparseSet
    split
    · simp [sparseFind]
    · split
      · simp [sparseFind]
      · rename_i h
        simp [sparseFind, Ne.symm h, ih]

theorem sparseFind_set_other {α : Type} (t : Sparse α) (n k : Nat) (v : α) (h : k ≠ n) :
    sparseFind (sparseSet t n v) k = sparseFind t k := by
  induction t with
  | nil => simp [sparseSet, sparseFind, Ne.symm h]
  | cons e rest ih =>
    obtain ⟨j, w⟩ := e
    unfold sparseSet
    split
    · simp [sparseFind, Ne.symm h]
    · split
      · rename_i hj
        subst hj
        simp [sparseFind, Ne.symm h]
      · simp [sparseFind, ih]

theorem sparseErase_cons {α : Type} (rest : Sparse α) (n k : Nat) (w : α) :
    sparseErase ((k, w) :: rest) n = if k = n then sparseErase rest n else (k, w) :: sparseErase rest n := by
  by_cases h : k = n <;> simp [sparseErase, h]

theorem sparseFind_erase_same {α : Type} (t : Sparse α) (n : Nat) : sparseFind (sparseErase t n) n = none := by
  induction t with
  | nil => rfl
  | cons e rest ih =>
    obtain ⟨k, w⟩ := e
    rw [sparseErase_cons]
    by_cases h : k = n <;> simp [h, sparseFind, ih]

theorem sparseFind_erase_other {α : Type} (t : Sparse α) (n k : Nat) (h : k ≠ n) :
    sparseFind (sparseErase t n) k = sparseFind t k := by
  induction t with
  | nil => rfl
  | cons e rest ih =>
    obtain ⟨j, w⟩ := e
    rw [sparseErase_cons]
    by_cases hj : j = n
    · subst hj
      simp [sparseFind, Ne.symm h, ih]
    · simp [hj, sparseFind, ih]

theorem mem_sparseSet {α : Type} (t : Sparse α) (n : Nat) (v : α) (e : Nat × α) (h : e ∈ sparseSet t n v) :
    e = (n, v) ∨ e ∈ t := by
  induction t with
  | nil => simpa [sparseSet] using h
  | cons d rest ih =>
    obtain ⟨k, w⟩ := d
    unfold sparseSet at h
    split at h
    · simpa using h
    · split at h
      · rcases List.mem_cons.1 h with h | h
        · exact .inl h
        · exact .inr (List.mem_cons_of_mem _ h)
      · rcases List.mem_cons.1 h with h | h
        · exact .inr (h ▸ List.mem_cons_self)
        · exact (ih h).imp id (List.mem_cons_of_mem _)

theorem sparseSet_rising {α : Type} (t : Sparse α) (n : Nat) (v : α) (h : sparseRising t) :
    sparseRising (sparseSet t n v) := by
  induction t with
  | nil => simp [sparseSet, sparseRising]
  | cons e rest ih =>
    obtain ⟨k, w⟩ := e
    have hk : ∀ a ∈ rest, k < a.1 := by
      intro a ha
      exact (List.pairwise_cons.1 h).1 a.1 (List.mem_map_of_mem ha)
    have hr : sparseRising rest := (List.pairwise_cons.1 h).2
    unfold sparseSet
    split
    · rename_i hn
      refine List.pairwise_cons.2 ⟨?_, h⟩
      intro a ha
      simp only [List.map_cons, List.mem_cons, List.mem_map] at ha
      rcases ha with rfl | ⟨b, hb, rfl⟩
      · exact hn
      · exact lt_trans hn (hk b hb)
    · split
      · rename_i hn
        subst hn
        exact h
      · rename_i h1 h2
        refine List.pairwise_cons.2 ⟨?_, ih hr⟩
        intro a ha
        obtain ⟨b, hb, rfl⟩ := List.mem_map.1 ha
        rcases mem_sparseSet rest n v b hb with rfl | hb'
        · simp only at h1 h2 ⊢; omega
        · exact hk b hb'

theorem sparseErase_rising {α : Type} (t : Sparse α) (n : Nat) (h : sparseRising t) : sparseRising (sparseErase t n) :=
  List.Pairwise.sublist (List.Sublist.map _ List.filter_sublist) h

/-! ## Meter rows -/

/-- A meter row reads as it was written. -/
@[simp] theorem setMeterRow_meterRow (m : RecordMemory) (n : Nat) (r : MeterRow) : (m.setMeterRow n r).meterRow n = r := by
  unfold RecordMemory.setMeterRow RecordMemory.meterRow
  dsimp only
  split
  · rename_i h
    rw [sparseFind_erase_same, h]
    rfl
  · rw [sparseFind_set_same]
    rfl

/-- A write of one meter row leaves every other meter row as it was. -/
theorem setMeterRow_meterRow_other (m : RecordMemory) (n k : Nat) (r : MeterRow) (h : k ≠ n) :
    (m.setMeterRow n r).meterRow k = m.meterRow k := by
  unfold RecordMemory.setMeterRow RecordMemory.meterRow
  dsimp only
  split
  · rw [sparseFind_erase_other _ _ _ h]
  · rw [sparseFind_set_other _ _ _ _ h]

@[simp] theorem writeRecord_meterRow (m : RecordMemory) (n : Nat) (r : MeterRecord) :
    (m.writeRecord n r).meterRow n = ⟨some r, {}⟩ :=
  setMeterRow_meterRow m n _

@[simp] theorem writeFree_meterRow (m : RecordMemory) (n : Nat) : (m.writeFree n).meterRow n = freeRow :=
  setMeterRow_meterRow m n _

/-! ## The canonical form -/

theorem setMeterRow_wf (m : RecordMemory) (n : Nat) (r : MeterRow) (h : m.wf) : (m.setMeterRow n r).wf := by
  unfold RecordMemory.setMeterRow
  split
  · exact ⟨sparseErase_rising _ _ h.1, fun e he => h.2 e (List.mem_filter.1 he).1⟩
  · rename_i hr
    refine ⟨sparseSet_rising _ _ _ h.1, fun e he => ?_⟩
    rcases mem_sparseSet _ _ _ _ he with rfl | he
    · exact hr
    · exact h.2 e he

theorem writeRecord_wf (m : RecordMemory) (n : Nat) (r : MeterRecord) (h : m.wf) : (m.writeRecord n r).wf :=
  setMeterRow_wf m n _ h

theorem writeFree_wf (m : RecordMemory) (n : Nat) (h : m.wf) : (m.writeFree n).wf :=
  setMeterRow_wf m n _ h

theorem setMeterWords_wf (m : RecordMemory) (n : Nat) (w : MeterWords) (h : m.wf) : (m.setMeterWords n w).wf :=
  setMeterRow_wf m n _ h

/-- The canonical form concerns the meter rows alone. -/
theorem wf_of_meters {m k : RecordMemory} (e : k.meters = m.meters) (h : m.wf) : k.wf := by
  unfold RecordMemory.wf at h ⊢
  rw [e]
  exact h

@[simp] theorem setRot_meters (m : RecordMemory) (id : RowId) (r : Rot) : (m.setRot id r).meters = m.meters := by
  cases id <;> rfl

@[simp] theorem writeOffice_meters (m : RecordMemory) (r : OfficeRow) : (m.writeOffice r).meters = m.meters := rfl
@[simp] theorem writeTariff_meters (m : RecordMemory) (i : Fin 2) (b : Option Bank) :
    (m.writeTariff i b).meters = m.meters := rfl
@[simp] theorem writeKey_meters (m : RecordMemory) (i : SlotId) (k : Option KeyContent) :
    (m.writeKey i k).meters = m.meters := rfl
@[simp] theorem writeLanes_meters (m : RecordMemory) (v : Vector LaneSettings 8) : (m.writeLanes v).meters = m.meters := rfl
@[simp] theorem writeCommit_meters (m : RecordMemory) (e : EngineId) (c : Option Marker) :
    (m.writeCommit e c).meters = m.meters := rfl

theorem setRot_wf (m : RecordMemory) (id : RowId) (r : Rot) (h : m.wf) : (m.setRot id r).wf :=
  wf_of_meters (setRot_meters m id r) h

theorem writeOffice_wf (m : RecordMemory) (r : OfficeRow) (h : m.wf) : (m.writeOffice r).wf :=
  wf_of_meters (writeOffice_meters m r) h

theorem writeTariff_wf (m : RecordMemory) (i : Fin 2) (b : Option Bank) (h : m.wf) : (m.writeTariff i b).wf :=
  wf_of_meters (writeTariff_meters m i b) h

theorem writeKey_wf (m : RecordMemory) (i : SlotId) (k : Option KeyContent) (h : m.wf) : (m.writeKey i k).wf :=
  wf_of_meters (writeKey_meters m i k) h

theorem writeLanes_wf (m : RecordMemory) (v : Vector LaneSettings 8) (h : m.wf) : (m.writeLanes v).wf :=
  wf_of_meters (writeLanes_meters m v) h

theorem writeCommit_wf (m : RecordMemory) (e : EngineId) (c : Option Marker) (h : m.wf) : (m.writeCommit e c).wf :=
  wf_of_meters (writeCommit_meters m e c) h

/-- Record memory after a reset of a part fresh from the factory has the canonical form. -/
theorem reset_memory_wf : State.reset.memory.wf := by decide

/-! ## Reads keep the canonical form -/

theorem readWords_wf (s : State) (n : Nat) (d : Decay) (h : s.memory.wf) : (s.readWords n d).memory.wf :=
  setMeterWords_wf _ _ _ h

theorem readRecordRow_wf (s : State) (n : Nat) (d : Decay) (h : s.memory.wf) : (s.readRecordRow n d).memory.wf := by
  unfold State.readRecordRow
  split <;> simpa using readWords_wf s n d h

theorem readPlainRow_wf (s : State) (id : RowId) (d : Decay) (h : s.memory.wf) : (s.readPlainRow id d).memory.wf :=
  setRot_wf _ _ _ h

theorem readMeter_wf (s : State) (m : MeterNumber) (d : Decay) (h : s.memory.wf) : (s.readMeter m d).1.memory.wf := by
  unfold State.readMeter
  split
  · exact h
  · split
    · exact h
    · split <;> exact readRecordRow_wf s _ d h

/-! ### Whole operations keep the canonical form -/

theorem editRecord_wf (s : State) (m : MeterNumber) (d : Decay) (edit : MeterRecord → Option MeterRecord) (h : s.memory.wf) :
    (s.editRecord m d edit).memory.wf := by
  unfold State.editRecord
  have hm := readMeter_wf s m d h
  split <;> rename_i e <;> rw [e] at hm
  · simpa using hm
  · split
    · simpa using writeRecord_wf _ _ _ hm
    · simpa using hm

theorem purgeRecord_wf (s : State) (m : MeterNumber) (d : Decay) (h : s.memory.wf) :
    (s.purgeRecord m d).memory.wf := by
  unfold State.purgeRecord
  have hm := readMeter_wf s m d h
  split <;> rename_i e <;> rw [e] at hm
  · simpa using hm
  · split
    · simpa using writeFree_wf _ _ hm
    · simpa using hm

/-- The completion of every record operation keeps the canonical form. -/
theorem recordDone_wf (op : RecordOp) (row : Option Nat) (d : Decay) (s : State) (h : s.memory.wf) :
    (State.recordDone op row d s).memory.wf := by
  unfold State.recordDone
  split
  · unfold State.enrolRecord
    split
    · simpa [State.createRecord] using writeRecord_wf _ _ _ h
    · split <;> simpa using h
  · exact editRecord_wf _ _ _ _ h
  · exact editRecord_wf _ _ _ _ h
  · exact editRecord_wf _ _ _ _ h
  · exact purgeRecord_wf _ _ _ h
  · unfold State.purgeOrphan
    split
    · simpa using h
    · split
      · simpa using h
      · simpa using writeFree_wf _ _ h
  · unfold State.restoreRecord
    repeat' split
    all_goals first
      | (simpa using h)
      | (simpa [State.restoreIndexed, State.restoreOrphan, State.createRecord] using writeRecord_wf _ _ _ h)

/-- So does the scrubber's read. -/
theorem scrubbed_wf (id : RowId) (d : Decay) (s : State) (h : s.memory.wf) : (State.scrubbed id d s).memory.wf := by
  unfold State.scrubbed State.scrubFindings State.readOrFault
  dsimp only
  repeat' split
  · simpa using readRecordRow_wf s _ d h
  · simpa using readWords_wf s _ d h
  · simpa using readPlainRow_wf s _ d h
  · simpa using readPlainRow_wf s _ d h

/-- Whatever operation a reset finds in progress, the memory it leaves when it lands is in the canonical form (R147). -/
theorem landedMemory_wf (s : State) (d : Decay) (h : s.memory.wf) : (s.landedMemory d).wf := by
  unfold State.landedMemory
  split
  · exact h
  · split
    · exact readMeter_wf _ _ _ h
    · exact readMeter_wf _ _ _ h
    · exact recordDone_wf _ _ _ _ h
    · exact scrubbed_wf _ _ _ h
    · exact h
    · exact writeRecord_wf _ _ _ h
    · exact writeCommit_wf _ _ _ h
    · exact writeOffice_wf _ _ h
    · exact writeTariff_wf _ _ _ h
    · exact writeTariff_wf _ _ _ h
    · exact writeKey_wf _ _ _ h
    · exact writeKey_wf _ _ _ h
    · exact writeLanes_wf _ _ h
    · exact readPlainRow_wf _ _ _ h
    · exact readPlainRow_wf _ _ _ h
    · exact writeRecord_wf _ _ _ h
    · exact writeCommit_wf _ _ _ h
    · exact readWords_wf _ _ _ h

/-! ### Rising lists -/

theorem mem_insertRising (n k : Nat) (l : List Nat) : k ∈ insertRising n l ↔ k = n ∨ k ∈ l := by
  induction l with
  | nil => simp [insertRising]
  | cons a l ih =>
    unfold insertRising
    split
    · simp
    · split
      · subst_vars; simp
      · simp [ih, or_left_comm]

theorem insertRising_rising (n : Nat) (l : List Nat) (h : l.Pairwise (· < ·)) : (insertRising n l).Pairwise (· < ·) := by
  induction l with
  | nil => simp [insertRising]
  | cons a l ih =>
    obtain ⟨h1, h2⟩ := List.pairwise_cons.1 h
    unfold insertRising
    split
    · refine List.pairwise_cons.2 ⟨fun k hk => ?_, h⟩
      rcases List.mem_cons.1 hk with rfl | hk
      · assumption
      · exact Nat.lt_trans (by assumption) (h1 k hk)
    · split
      · exact h
      · refine List.pairwise_cons.2 ⟨fun k hk => ?_, ih h2⟩
        rcases (mem_insertRising n k l).1 hk with rfl | hk
        · omega
        · exact h1 k hk

/-! ### Row conditions -/

@[simp] theorem setCondition_condition (t : Store) (n : Nat) (c : RowCondition) : (t.setCondition n c).condition n = c := by
  unfold Store.condition Store.setCondition
  by_cases h : c = .undetermined
  · simp [h, sparseFind_erase_same]
  · simp [h, sparseFind_set_same]

theorem setCondition_condition_other (t : Store) (n k : Nat) (c : RowCondition) (h : k ≠ n) :
    (t.setCondition n c).condition k = t.condition k := by
  unfold Store.condition Store.setCondition
  by_cases e : c = .undetermined
  · simp [e, sparseFind_erase_other t.conditions n k h]
  · simp [e, sparseFind_set_other t.conditions n k c h]

end Sys2Proof.Machine
end

