-- ==== Sys2Proof/Laws/Link.lean ====
section
/-! SUPPORT. The laws of the request link: what taking a frame, admitting a supervisor request and forming a reply do, for
a link that is free. Later proofs cite these in place of unfolding the link's operations. -/

namespace Sys2Proof.Machine

open Sys2Proof

/-! ### A settled state -/

theorem Lane.expire_of_not_due (l : Lane) (h : l.expiryDue = false) : l.expire = l := by
  simp [Lane.expire, h]

/-- A state whose TICK has left nothing due has nothing to settle. -/
theorem settleTick_of_settled (s : State) (h : s.tickSettled = true) : s.settleTick = s := by
  simp only [State.tickSettled, Bool.and_eq_true, List.all_eq_true, Bool.not_eq_true'] at h
  have hl : s.lanes.map Lane.expire = s.lanes := by
    refine Vector.ext fun i hi => ?_
    rw [Vector.getElem_map]
    exact Lane.expire_of_not_due _ (h.1 _ (by simp))
  simp only [State.settleTick, State.settleLanes, hl, State.settleMinute, h.2]
  rfl

/-! ### Taking a request -/

/-- What taking a frame comes to when the link is free and the office READY: checks 1 to 4 of R176 are passed and the
owner's rules decide, for a counter request on any lane and for a supervisor request on lane 0. -/
theorem takeFrame_of_takes (s : State) (k : Kind) (lane : LaneId) (tag : Tag) (owner : State → State) (h : s.Takes)
    (hk : k.isCounter = true ∨ lane = 0) : s.takeFrame k lane tag owner = owner (s.working k lane tag) := by
  obtain ⟨h1, h2, h3, h4⟩ := h
  have ho : ((s.settleTick.beginExchange lane (requestHeader k lane tag))).office = .ready := by simp [h3]
  simp only [State.takeFrame, h1, h2, State.route, ho]
  rw [settleTick_of_settled s h4]
  simp only [reduceCtorEq, false_and, if_false, if_pos hk, Bool.false_eq_true]
  rfl

theorem working_lane (s : State) (k : Kind) (lane : LaneId) (tag : Tag) :
    (s.working k lane tag).lane lane = { s.lane lane with idle := 0 } := by
  simp [State.working, State.lane]

theorem working_lane_other (s : State) (k : Kind) (lane n : LaneId) (tag : Tag) (h : n ≠ lane) :
    (s.working k lane tag).lane n = s.lane n := by
  have : lane.val ≠ n.val := fun e => h (Fin.ext e.symm)
  simp [State.working, State.lane, this]

theorem working_supervisorOpen (s : State) (k : Kind) (tag : Tag) :
    (s.working k 0 tag).supervisorOpen = s.supervisorOpen := by
  simp [State.supervisorOpen, working_lane]

/-- What taking a supervisor request on lane 0 comes to when lane 0 is OPEN and unlocked. -/
theorem takeSupervisor_of_takes (s : State) (k : Kind) (tag : Tag) (owner : State → State) (h : s.TakesSupervisor) :
    s.takeSupervisor k 0 tag owner = owner (s.working k 0 tag) := by
  unfold State.takeSupervisor
  rw [takeFrame_of_takes s k 0 tag _ h.1 (.inr rfl)]
  simp [State.supervise, working_supervisorOpen, h.2]

/-! ### Forming a reply -/

/-- A reply that charges the discipline count nothing, to a request in hand. -/
theorem respond_of_working (s : State) (lane : LaneId) (hd : Header) (overlap : Bool) (code : ResultCode) (body : ReplyBody)
    (h : s.exchange = .working lane hd overlap) (hc : replyCharge code = 0) :
    s.respond code body = s.completed lane hd overlap code body := by
  simp [State.respond, State.completed, h, hc]

/-- A reply that charges the discipline count nothing, to a request that has just been taken. -/
theorem working_respond (s : State) (k : Kind) (lane : LaneId) (tag : Tag) (code : ResultCode) (body : ReplyBody)
    (hc : replyCharge code = 0) :
    (s.working k lane tag).respond code body = s.replied k lane tag { s.lane lane with idle := 0 } code body := by
  rw [respond_of_working _ lane (requestHeader k lane tag) false _ _ rfl hc]
  simp [State.completed, State.replied, State.working, State.lane]

/-- The same for a lane whose context the request has changed. -/
theorem working_setLane_respond (s : State) (k : Kind) (lane : LaneId) (tag : Tag) (x : Lane) (code : ResultCode)
    (body : ReplyBody) (hc : replyCharge code = 0) :
    ((s.working k lane tag).setLane lane x).respond code body = s.replied k lane tag x code body := by
  rw [respond_of_working _ lane (requestHeader k lane tag) false _ _ rfl hc]
  simp [State.completed, State.replied, State.working, State.setLane, State.lane]

/-- A refusal that charges the discipline count, to a request that has just been taken. -/
theorem working_charge (s : State) (k : Kind) (lane : LaneId) (tag : Tag) (code : ResultCode) (body : ReplyBody) (n : Nat)
    (hn : n ≠ 0) (hc : replyCharge code = n) :
    (s.working k lane tag).respond code body = s.charged k lane tag n code body := by
  have e : (s.working k lane tag).lane lane = { s.lane lane with idle := 0 } := working_lane ..
  unfold State.working at e
  unfold State.respond State.raiseCount State.charged State.replied
  simp only [State.working, hc, hn, if_false, e]
  split
  · rename_i h
    simp only [State.lane, Fin.getElem_fin] at h
    simp [State.setLane, State.raiseLaneBarred, State.lane, h]
  · rename_i h
    simp only [State.lane, Fin.getElem_fin] at h
    cases s.events
    simp [State.setLane, State.lane]
    exact fun a b => absurd ⟨a, b⟩ h

/-- A tag is held where R93's sixth check looks for it. -/
theorem Lane.holdsTag_iff (l : Lane) (tag : Tag) :
    l.holdsTag tag = true ↔ (tag ∈ l.queue.map (·.tag) ∨ tag ∈ l.inFlight.map (·.1) ∨ some tag = l.foreground.map (·.tag)
      ∨ some tag = l.background.map (·.tag)) := by
  unfold Lane.holdsTag
  cases l.foreground <;> cases l.background <;> simp [or_assoc, @eq_comm _ tag]

/-! ### The store's list -/

/-- An operation placed with a store that holds none is taken at once. -/
theorem place_of_rest (s : State) (op : RowOp) (h : s.store.inProgress = none) : s.place op = s.takeOp op := by
  simp [State.place, h]

/-- An operation placed with a store that holds one joins the end of the list. -/
theorem place_of_busy (s : State) (op : RowOp) (t : TakenOp) (h : s.store.inProgress = some t) :
    s.place op = { s with store := { s.store with waiting := s.store.waiting ++ [op] } } := by
  simp [State.place, h]

/-- A store that completes its operation with nothing behind it rests. -/
theorem finishOp_of_alone (s : State) (h : s.store.waiting = []) : s.finishOp = s.rested := by
  simp [State.finishOp, State.rested, h]

/-- A store that completes its operation takes the first of its list. -/
theorem finishOp_of_waiting (s : State) (op : RowOp) (rest : List RowOp) (h : s.store.waiting = op :: rest) :
    s.finishOp = { s with store := { s.store with waiting := rest } }.takeOp op := by
  simp [State.finishOp, h]

end Sys2Proof.Machine
end

