-- ==== Sys2Proof/Laws/PerInstr.lean ====
section
/-! SUPPORT. A property of every command as syntax, one lemma for each constructor: a request's frame carries its kind, its
lane, its tag and its body, and no other command has a frame. -/

namespace Sys2Proof.Laws.Framed

open Sys2Proof Sys2Proof.Machine

/-- A request command is the command of the parts its frame is made of; a command that is no request has no frame, and
no parts spell it. -/
def Statement (i : Instr) : Prop :=
  match requestParts i with
  | some (k, lane, tag, body) => commandOf k lane tag body = i ∧ encodeRequest i = some (requestFrame lane k tag body)
  | none => encodeRequest i = none ∧ ∀ k lane tag body, commandOf k lane tag body ≠ i

theorem vend (lane : LaneId) (tag : Tag) (body : List Byte) : Statement (.vend lane tag body) := ⟨rfl, rfl⟩
theorem cancel (lane : LaneId) (tag : Tag) (body : List Byte) : Statement (.cancel lane tag body) := ⟨rfl, rfl⟩
theorem collect (lane : LaneId) (tag : Tag) (body : List Byte) : Statement (.collect lane tag body) := ⟨rfl, rfl⟩
theorem resume (lane : LaneId) (tag : Tag) (body : List Byte) : Statement (.resume lane tag body) := ⟨rfl, rfl⟩
theorem laneStatus (lane : LaneId) (tag : Tag) (body : List Byte) : Statement (.laneStatus lane tag body) := ⟨rfl, rfl⟩
theorem lookup (lane : LaneId) (tag : Tag) (body : List Byte) : Statement (.lookup lane tag body) := ⟨rfl, rfl⟩
theorem reprint (lane : LaneId) (tag : Tag) (body : List Byte) : Statement (.reprint lane tag body) := ⟨rfl, rfl⟩
theorem quote (lane : LaneId) (tag : Tag) (body : List Byte) : Statement (.quote lane tag body) := ⟨rfl, rfl⟩
theorem openLane (lane : LaneId) (tag : Tag) (body : List Byte) : Statement (.openLane lane tag body) := ⟨rfl, rfl⟩
theorem closeLane (lane : LaneId) (tag : Tag) (body : List Byte) : Statement (.closeLane lane tag body) := ⟨rfl, rfl⟩
theorem setLane (lane : LaneId) (tag : Tag) (body : List Byte) : Statement (.setLane lane tag body) := ⟨rfl, rfl⟩
theorem clearLaneCount (lane : LaneId) (tag : Tag) (body : List Byte) : Statement (.clearLaneCount lane tag body) := ⟨rfl, rfl⟩
theorem enrol (lane : LaneId) (tag : Tag) (body : List Byte) : Statement (.enrol lane tag body) := ⟨rfl, rfl⟩
theorem amend (lane : LaneId) (tag : Tag) (body : List Byte) : Statement (.amend lane tag body) := ⟨rfl, rfl⟩
theorem retire (lane : LaneId) (tag : Tag) (body : List Byte) : Statement (.retire lane tag body) := ⟨rfl, rfl⟩
theorem reinstate (lane : LaneId) (tag : Tag) (body : List Byte) : Statement (.reinstate lane tag body) := ⟨rfl, rfl⟩
theorem purge (lane : LaneId) (tag : Tag) (body : List Byte) : Statement (.purge lane tag body) := ⟨rfl, rfl⟩
theorem purgeRow (lane : LaneId) (tag : Tag) (body : List Byte) : Statement (.purgeRow lane tag body) := ⟨rfl, rfl⟩
theorem restore (lane : LaneId) (tag : Tag) (body : List Byte) : Statement (.restore lane tag body) := ⟨rfl, rfl⟩
theorem setTariff (lane : LaneId) (tag : Tag) (body : List Byte) : Statement (.setTariff lane tag body) := ⟨rfl, rfl⟩
theorem clearPendingTariff (lane : LaneId) (tag : Tag) (body : List Byte) : Statement (.clearPendingTariff lane tag body) := ⟨rfl, rfl⟩
theorem readTariff (lane : LaneId) (tag : Tag) (body : List Byte) : Statement (.readTariff lane tag body) := ⟨rfl, rfl⟩
theorem loadKey (lane : LaneId) (tag : Tag) (body : List Byte) : Statement (.loadKey lane tag body) := ⟨rfl, rfl⟩
theorem dropKey (lane : LaneId) (tag : Tag) (body : List Byte) : Statement (.dropKey lane tag body) := ⟨rfl, rfl⟩
theorem readKeys (lane : LaneId) (tag : Tag) (body : List Byte) : Statement (.readKeys lane tag body) := ⟨rfl, rfl⟩
theorem enableEngineB (lane : LaneId) (tag : Tag) (body : List Byte) : Statement (.enableEngineB lane tag body) := ⟨rfl, rfl⟩
theorem grant (lane : LaneId) (tag : Tag) (body : List Byte) : Statement (.grant lane tag body) := ⟨rfl, rfl⟩
theorem closeDay (lane : LaneId) (tag : Tag) (body : List Byte) : Statement (.closeDay lane tag body) := ⟨rfl, rfl⟩
theorem closeMonth (lane : LaneId) (tag : Tag) (body : List Byte) : Statement (.closeMonth lane tag body) := ⟨rfl, rfl⟩
theorem setMemoryAlarm (lane : LaneId) (tag : Tag) (body : List Byte) : Statement (.setMemoryAlarm lane tag body) := ⟨rfl, rfl⟩
theorem clearEvents (lane : LaneId) (tag : Tag) (body : List Byte) : Statement (.clearEvents lane tag body) := ⟨rfl, rfl⟩
theorem readStatus (lane : LaneId) (tag : Tag) (body : List Byte) : Statement (.readStatus lane tag body) := ⟨rfl, rfl⟩
theorem setOffice (lane : LaneId) (tag : Tag) (body : List Byte) : Statement (.setOffice lane tag body) := ⟨rfl, rfl⟩
theorem badFrame (bytes : List Byte) : Statement (.badFrame bytes) :=
  ⟨rfl, fun k _ _ _ => by cases k <;> nofun⟩
theorem frameDiscarded (bytes : List Byte) : Statement (.frameDiscarded bytes) :=
  ⟨rfl, fun k _ _ _ => by cases k <;> nofun⟩
theorem replyRead (count : Nat) : Statement (.replyRead count) :=
  ⟨rfl, fun k _ _ _ => by cases k <;> nofun⟩
theorem tick : Statement .tick :=
  ⟨rfl, fun k _ _ _ => by cases k <;> nofun⟩
theorem idleExpiry (lane : LaneId) : Statement (.idleExpiry lane) :=
  ⟨rfl, fun k _ _ _ => by cases k <;> nofun⟩
theorem dayAgeMinute : Statement .dayAgeMinute :=
  ⟨rfl, fun k _ _ _ => by cases k <;> nofun⟩
theorem mainsOkChange (high : Bool) : Statement (.mainsOkChange high) :=
  ⟨rfl, fun k _ _ _ => by cases k <;> nofun⟩
theorem pwrWarnChange (high : Bool) : Statement (.pwrWarnChange high) :=
  ⟨rfl, fun k _ _ _ => by cases k <;> nofun⟩
theorem reset (landed : Option Decay) : Statement (.reset landed) :=
  ⟨rfl, fun k _ _ _ => by cases k <;> nofun⟩
theorem dispatch : Statement .dispatch :=
  ⟨rfl, fun k _ _ _ => by cases k <;> nofun⟩
theorem claimRetaken : Statement .claimRetaken :=
  ⟨rfl, fun k _ _ _ => by cases k <;> nofun⟩
theorem waitingSupervisorRetaken : Statement .waitingSupervisorRetaken :=
  ⟨rfl, fun k _ _ _ => by cases k <;> nofun⟩
theorem itemReadDone (decay : Decay) : Statement (.itemReadDone decay) :=
  ⟨rfl, fun k _ _ _ => by cases k <;> nofun⟩
theorem tokenComputed : Statement .tokenComputed :=
  ⟨rfl, fun k _ _ _ => by cases k <;> nofun⟩
theorem grantVerified : Statement .grantVerified :=
  ⟨rfl, fun k _ _ _ => by cases k <;> nofun⟩
theorem loadKeyVerified : Statement .loadKeyVerified :=
  ⟨rfl, fun k _ _ _ => by cases k <;> nofun⟩
theorem restoreVerified : Statement .restoreVerified :=
  ⟨rfl, fun k _ _ _ => by cases k <;> nofun⟩
theorem commitMarkerWritten : Statement .commitMarkerWritten :=
  ⟨rfl, fun k _ _ _ => by cases k <;> nofun⟩
theorem commitMeterRowWritten : Statement .commitMeterRowWritten :=
  ⟨rfl, fun k _ _ _ => by cases k <;> nofun⟩
theorem commitOfficeRowWritten : Statement .commitOfficeRowWritten :=
  ⟨rfl, fun k _ _ _ => by cases k <;> nofun⟩
theorem commitCleared : Statement .commitCleared :=
  ⟨rfl, fun k _ _ _ => by cases k <;> nofun⟩
theorem recordWriteDone (decay : Decay) : Statement (.recordWriteDone decay) :=
  ⟨rfl, fun k _ _ _ => by cases k <;> nofun⟩
theorem counterReadDone (decay : Decay) : Statement (.counterReadDone decay) :=
  ⟨rfl, fun k _ _ _ => by cases k <;> nofun⟩
theorem setTariffWriteDone : Statement .setTariffWriteDone :=
  ⟨rfl, fun k _ _ _ => by cases k <;> nofun⟩
theorem clearTariffWriteDone : Statement .clearTariffWriteDone :=
  ⟨rfl, fun k _ _ _ => by cases k <;> nofun⟩
theorem keyWriteDone : Statement .keyWriteDone :=
  ⟨rfl, fun k _ _ _ => by cases k <;> nofun⟩
theorem dropKeyWriteDone : Statement .dropKeyWriteDone :=
  ⟨rfl, fun k _ _ _ => by cases k <;> nofun⟩
theorem laneSettingsWriteDone : Statement .laneSettingsWriteDone :=
  ⟨rfl, fun k _ _ _ => by cases k <;> nofun⟩
theorem grantWriteDone : Statement .grantWriteDone :=
  ⟨rfl, fun k _ _ _ => by cases k <;> nofun⟩
theorem closeDayWriteDone : Statement .closeDayWriteDone :=
  ⟨rfl, fun k _ _ _ => by cases k <;> nofun⟩
theorem closeMonthWriteDone : Statement .closeMonthWriteDone :=
  ⟨rfl, fun k _ _ _ => by cases k <;> nofun⟩
theorem monthAdvance : Statement .monthAdvance :=
  ⟨rfl, fun k _ _ _ => by cases k <;> nofun⟩
theorem dayAgeWriteDone : Statement .dayAgeWriteDone :=
  ⟨rfl, fun k _ _ _ => by cases k <;> nofun⟩
theorem setOfficeWriteDone : Statement .setOfficeWriteDone :=
  ⟨rfl, fun k _ _ _ => by cases k <;> nofun⟩
theorem memoryAlarmWriteDone : Statement .memoryAlarmWriteDone :=
  ⟨rfl, fun k _ _ _ => by cases k <;> nofun⟩
theorem scrubberStep : Statement .scrubberStep :=
  ⟨rfl, fun k _ _ _ => by cases k <;> nofun⟩
theorem scrubberReadDone (decay : Decay) : Statement (.scrubberReadDone decay) :=
  ⟨rfl, fun k _ _ _ => by cases k <;> nofun⟩
theorem startupOfficeRowRead (decay : Decay) : Statement (.startupOfficeRowRead decay) :=
  ⟨rfl, fun k _ _ _ => by cases k <;> nofun⟩
theorem rollForwardWriteDone : Statement .rollForwardWriteDone :=
  ⟨rfl, fun k _ _ _ => by cases k <;> nofun⟩
theorem scanRowRead (decay : Decay) : Statement (.scanRowRead decay) :=
  ⟨rfl, fun k _ _ _ => by cases k <;> nofun⟩
theorem commitRowRead (decay : Decay) : Statement (.commitRowRead decay) :=
  ⟨rfl, fun k _ _ _ => by cases k <;> nofun⟩
theorem resetAsserted : Statement .resetAsserted :=
  ⟨rfl, fun k _ _ _ => by cases k <;> nofun⟩

end Sys2Proof.Laws.Framed
end

