-- ==== Sys2Proof/Laws/Requests.lean ====
section
/-! SUPPORT. What a request can do when the link takes it, said once for all 33 kinds: it is answered at once, or it places
one row operation, consults the lock table, asks the cipher unit or starts a key slot's change. Later proofs take these
cases in place of unfolding each request. -/

namespace Sys2Proof.Machine

open Sys2Proof

/-- A state that differs in the lanes, the event flags and the tariff unit alone. -/
def State.Beside (s u : State) : Prop :=
  u = { s with lanes := u.lanes, events := u.events, tariff := u.tariff }

/-- What a request makes of the state it is routed in: every outcome of every request (R176, R177). -/
inductive State.Answered (s : State) : State → Prop
  /-- A reply at once. -/
  | replied (u : State) (c : ResultCode) (b : ReplyBody) (h : s.Beside u) : s.Answered (u.respond c b)
  /-- A row operation that the reply waits for. -/
  | placed (u : State) (op : RowOp) (h : s.Beside u) (ha : op.answers = true) (hk : op.keySlot = none) :
    s.Answered (u.place op)
  /-- A record operation, by the lock table (R15). -/
  | consulted (op : RecordOp) : s.Answered (s.consultLocks op)
  /-- A cipher request that the reply waits for (R72). -/
  | enciphered (r : CipherRequest) (h : r.engine = none) : s.Answered (s.requestCipher r)
  /-- The row of a slot of no use is dropped (R70). -/
  | dropped (i : SlotId) (g : Nat) (h : s.slots[i].inUse = 0) :
    s.Answered ((s.setSlot i { s.slots[i] with state := .changing }).place (.dropKey i g))
  /-- Engine B is enabled (R103). -/
  | enabled (c : ResultCode) (b : ReplyBody) (h : s.engines.b = .disabled) :
    s.Answered ((s.setEngine .b (restingEngine .b s.supply)).respond c b)

theorem State.Beside.refl (s : State) : s.Beside s := rfl

/-- An answer of the link or of the lane bank itself. -/
theorem answered_answer (s : State) (c : ResultCode) : s.Answered (s.answer c) :=
  .replied s c .empty rfl

/-! ### Each request -/

theorem vendRequest_answered (lane : LaneId) (tag : Tag) (body : List Byte) (t : State) :
    t.Answered (State.vendRequest lane tag body t) := by
  unfold State.vendRequest State.acceptVend
  try dsimp only
  repeat' split
  all_goals first
    | exact .replied t _ _ rfl
    | exact .placed t _ rfl rfl rfl
    | exact .consulted _
    | exact .enciphered _ rfl
    | exact .replied _ _ _ rfl

theorem cancelRequest_answered (lane : LaneId) (tag : Tag) (body : List Byte) (t : State) :
    t.Answered (State.cancelRequest lane tag body t) := by
  unfold State.cancelRequest State.admitEnquiry State.cancelTag
  try dsimp only
  repeat' split
  all_goals first
    | exact .replied t _ _ rfl
    | exact .placed t _ rfl rfl rfl
    | exact .consulted _
    | exact .enciphered _ rfl
    | exact .replied _ _ _ rfl

theorem collectRequest_answered (lane : LaneId) (body : List Byte) (t : State) :
    t.Answered (State.collectRequest lane body t) := by
  unfold State.collectRequest State.admitCollect State.collectResult
  try dsimp only
  repeat' split
  all_goals first
    | exact .replied t _ _ rfl
    | exact .placed t _ rfl rfl rfl
    | exact .consulted _
    | exact .enciphered _ rfl
    | exact .replied _ _ _ rfl

theorem resumeRequest_answered (lane : LaneId) (body : List Byte) (t : State) :
    t.Answered (State.resumeRequest lane body t) := by
  unfold State.resumeRequest State.admitResume State.resumeWith
  try dsimp only
  repeat' split
  all_goals first
    | exact .replied t _ _ rfl
    | exact .placed t _ rfl rfl rfl
    | exact .consulted _
    | exact .enciphered _ rfl
    | exact .replied _ _ _ rfl

theorem laneStatusRequest_answered (lane : LaneId) (body : List Byte) (t : State) :
    t.Answered (State.laneStatusRequest lane body t) := by
  unfold State.laneStatusRequest State.supervise
  try dsimp only
  repeat' split
  all_goals exact .replied t _ _ rfl

theorem lookupRequest_answered (lane : LaneId) (body : List Byte) (t : State) :
    t.Answered (State.lookupRequest lane body t) := by
  unfold State.lookupRequest State.admitEnquiry State.placeCounterRead
  try dsimp only
  repeat' split
  all_goals first
    | exact .replied t _ _ rfl
    | exact .placed t _ rfl rfl rfl

theorem reprintRequest_answered (lane : LaneId) (body : List Byte) (t : State) :
    t.Answered (State.reprintRequest lane body t) := by
  unfold State.reprintRequest State.admitEnquiry State.placeCounterRead
  try dsimp only
  repeat' split
  all_goals first
    | exact .replied t _ _ rfl
    | exact .placed t _ rfl rfl rfl

theorem quoteRequest_answered (lane : LaneId) (body : List Byte) (t : State) :
    t.Answered (State.quoteRequest lane body t) := by
  unfold State.quoteRequest State.admitEnquiry State.placeCounterRead
  try dsimp only
  repeat' split
  all_goals first
    | exact .replied t _ _ rfl
    | exact .placed t _ rfl rfl rfl

theorem openLaneRequest_answered (body : List Byte) (t : State) :
    t.Answered (State.openLaneRequest body t) := by
  unfold State.openLaneRequest State.openSupervisorLane State.openCounterLane
  try dsimp only
  repeat' split
  all_goals first
    | exact .replied t _ _ rfl
    | exact .placed t _ rfl rfl rfl
    | exact .consulted _
    | exact .enciphered _ rfl
    | exact .replied _ _ _ rfl

theorem closeLaneRequest_answered (body : List Byte) (t : State) :
    t.Answered (State.closeLaneRequest body t) := by
  unfold State.closeLaneRequest State.closeLane
  try dsimp only
  repeat' split
  all_goals first
    | exact .replied t _ _ rfl
    | exact .placed t _ rfl rfl rfl
    | exact .consulted _
    | exact .enciphered _ rfl
    | exact .replied _ _ _ rfl

theorem setLaneRequest_answered (body : List Byte) (t : State) :
    t.Answered (State.setLaneRequest body t) := by
  unfold State.setLaneRequest
  try dsimp only
  repeat' split
  all_goals first
    | exact .replied t _ _ rfl
    | exact .placed t _ rfl rfl rfl

theorem clearLaneCountRequest_answered (body : List Byte) (t : State) :
    t.Answered (State.clearLaneCountRequest body t) := by
  unfold State.clearLaneCountRequest
  try dsimp only
  repeat' split
  all_goals first
    | exact .replied t _ _ rfl
    | exact .placed t _ rfl rfl rfl
    | exact .consulted _
    | exact .enciphered _ rfl
    | exact .replied _ _ _ rfl

theorem enrolRequest_answered (body : List Byte) (t : State) :
    t.Answered (State.enrolRequest body t) := by
  unfold State.enrolRequest State.receiveRecord
  try dsimp only
  repeat' split
  all_goals first
    | exact .replied t _ _ rfl
    | exact .placed t _ rfl rfl rfl

theorem amendRequest_answered (body : List Byte) (t : State) :
    t.Answered (State.amendRequest body t) := by
  unfold State.amendRequest State.receiveRecord
  try dsimp only
  repeat' split
  all_goals first
    | exact .replied t _ _ rfl
    | exact .placed t _ rfl rfl rfl
    | exact .consulted _

theorem retireRequest_answered (body : List Byte) (t : State) :
    t.Answered (State.retireRequest body t) := by
  unfold State.retireRequest State.receiveRecord
  try dsimp only
  repeat' split
  all_goals first
    | exact .replied t _ _ rfl
    | exact .placed t _ rfl rfl rfl
    | exact .consulted _

theorem reinstateRequest_answered (body : List Byte) (t : State) :
    t.Answered (State.reinstateRequest body t) := by
  unfold State.reinstateRequest State.receiveRecord
  try dsimp only
  repeat' split
  all_goals first
    | exact .replied t _ _ rfl
    | exact .placed t _ rfl rfl rfl
    | exact .consulted _

theorem purgeRequest_answered (body : List Byte) (t : State) :
    t.Answered (State.purgeRequest body t) := by
  unfold State.purgeRequest State.receiveRecord
  try dsimp only
  repeat' split
  all_goals first
    | exact .replied t _ _ rfl
    | exact .placed t _ rfl rfl rfl
    | exact .consulted _

theorem purgeRowRequest_answered (body : List Byte) (t : State) :
    t.Answered (State.purgeRowRequest body t) := by
  unfold State.purgeRowRequest
  try dsimp only
  repeat' split
  all_goals first
    | exact .replied t _ _ rfl
    | exact .placed t _ rfl rfl rfl

theorem restoreRequest_answered (body : List Byte) (t : State) :
    t.Answered (State.restoreRequest body t) := by
  unfold State.restoreRequest State.receiveRecord
  try dsimp only
  repeat' split
  all_goals first
    | exact .replied t _ _ rfl
    | exact .placed t _ rfl rfl rfl
    | exact .consulted _
    | exact .enciphered _ rfl

theorem setTariffRequest_answered (body : List Byte) (t : State) :
    t.Answered (State.setTariffRequest body t) := by
  unfold State.setTariffRequest
  try dsimp only
  repeat' split
  all_goals first
    | exact .replied t _ _ rfl
    | exact .placed t _ rfl rfl rfl
    | exact .consulted _
    | exact .enciphered _ rfl
    | exact .replied _ _ _ rfl
    | exact .placed _ _ rfl rfl rfl

theorem clearTariffRequest_answered (body : List Byte) (t : State) :
    t.Answered (State.clearTariffRequest body t) := by
  unfold State.clearTariffRequest
  try dsimp only
  repeat' split
  all_goals first
    | exact .replied t _ _ rfl
    | exact .placed t _ rfl rfl rfl
    | exact .consulted _
    | exact .enciphered _ rfl
    | exact .replied _ _ _ rfl
    | exact .placed _ _ rfl rfl rfl

theorem readTariffRequest_answered (body : List Byte) (t : State) :
    t.Answered (State.readTariffRequest body t) := by
  unfold State.readTariffRequest
  try dsimp only
  repeat' split
  all_goals exact .replied t _ _ rfl

theorem loadKeyRequest_answered (body : List Byte) (t : State) :
    t.Answered (State.loadKeyRequest body t) := by
  unfold State.loadKeyRequest
  try dsimp only
  repeat' split
  all_goals first
    | exact .replied t _ _ rfl
    | exact .placed t _ rfl rfl rfl
    | exact .consulted _
    | exact .enciphered _ rfl

theorem dropKeyRequest_answered (body : List Byte) (t : State) :
    t.Answered (State.dropKeyRequest body t) := by
  unfold State.dropKeyRequest
  try dsimp only
  repeat' split
  all_goals first
    | exact .replied t _ _ rfl
    | exact .placed t _ rfl rfl rfl
    | exact .consulted _
    | exact .enciphered _ rfl
    | exact .replied _ _ _ rfl
    | exact .placed _ _ rfl rfl rfl
    | exact .dropped _ _ (by simp_all)

theorem readKeysRequest_answered (body : List Byte) (t : State) :
    t.Answered (State.readKeysRequest body t) := by
  unfold State.readKeysRequest
  try dsimp only
  repeat' split
  all_goals exact .replied t _ _ rfl

theorem enableRequest_answered (body : List Byte) (t : State) :
    t.Answered (State.enableRequest body t) := by
  unfold State.enableRequest
  try dsimp only
  repeat' split
  all_goals first
    | exact .replied t _ _ rfl
    | exact .placed t _ rfl rfl rfl
    | exact .consulted _
    | exact .enciphered _ rfl
    | exact .replied _ _ _ rfl
    | exact .placed _ _ rfl rfl rfl
    | exact .dropped _ _ (by simp_all)
    | exact .enabled _ _ (by assumption)

theorem grantRequest_answered (body : List Byte) (t : State) :
    t.Answered (State.grantRequest body t) := by
  unfold State.grantRequest
  try dsimp only
  repeat' split
  all_goals first
    | exact .replied t _ _ rfl
    | exact .placed t _ rfl rfl rfl
    | exact .consulted _
    | exact .enciphered _ rfl

theorem closeDayRequest_answered (body : List Byte) (t : State) :
    t.Answered (State.closeDayRequest body t) := by
  unfold State.closeDayRequest
  try dsimp only
  repeat' split
  all_goals first
    | exact .replied t _ _ rfl
    | exact .placed t _ rfl rfl rfl

theorem closeMonthRequest_answered (body : List Byte) (t : State) :
    t.Answered (State.closeMonthRequest body t) := by
  unfold State.closeMonthRequest
  try dsimp only
  repeat' split
  all_goals first
    | exact .replied t _ _ rfl
    | exact .placed t _ rfl rfl rfl

theorem setAlarmRequest_answered (body : List Byte) (t : State) :
    t.Answered (State.setAlarmRequest body t) := by
  unfold State.setAlarmRequest
  try dsimp only
  repeat' split
  all_goals first
    | exact .replied t _ _ rfl
    | exact .placed t _ rfl rfl rfl

theorem clearEventsRequest_answered (body : List Byte) (t : State) :
    t.Answered (State.clearEventsRequest body t) := by
  unfold State.clearEventsRequest
  try dsimp only
  repeat' split
  all_goals first
    | exact .replied t _ _ rfl
    | exact .placed t _ rfl rfl rfl
    | exact .consulted _
    | exact .enciphered _ rfl
    | exact .replied _ _ _ rfl

theorem setOfficeRequest_answered (body : List Byte) (t : State) :
    t.Answered (State.setOfficeRequest body t) := by
  unfold State.setOfficeRequest
  try dsimp only
  repeat' split
  all_goals first
    | exact .replied t _ _ rfl
    | exact .placed t _ rfl rfl rfl

/-! ### All requests -/

/-- What a request command makes of the state: nothing while RESET is held (R165), an overlap mark while the link is not free
(R175), and else the request's outcome in the state that took it, an outcome other than a reply in READY alone (R176). -/
inductive State.Requested (s : State) : State → Prop
  | held : s.resetHeld = true → s.Requested s
  | overlapped : s.Requested s.discardFrame
  | refused (lane : LaneId) (h : Header) (u : State) (c : ResultCode) (b : ReplyBody) (hi : s.exchange = .idle)
    (hu : (s.settleTick.beginExchange lane h).Beside u) : s.Requested (u.respond c b)
  | taken (lane : LaneId) (h : Header) (t : State) (hi : s.exchange = .idle) (ho : s.office = .ready)
    (ht : (s.settleTick.beginExchange lane h).Answered t) : s.Requested t

theorem takeFrame_requested (s : State) (k : Kind) (lane : LaneId) (tag : Tag) (owner : State → State) (hk : k ≠ .readStatus)
    (ho : ∀ t : State, t.Answered (owner t)) : s.Requested (s.takeFrame k lane tag owner) := by
  unfold State.takeFrame
  split
  · exact .held ‹_›
  · split
    · have e : (s.settleTick.beginExchange lane (requestHeader k lane tag)).office = s.office := by simp
      unfold State.route
      rw [e]
      split
      · exact .refused lane _ _ _ _ ‹_› rfl
      · split
        · exact .refused lane _ _ _ _ ‹_› rfl
        · split
          · refine .taken lane _ _ ‹_› ?_ (ho _)
            cases hs : s.office <;> simp_all
          · exact .refused lane _ _ _ _ ‹_› rfl
    · exact .overlapped

theorem takeStatus_requested (s : State) (lane : LaneId) (tag : Tag) (body : List Byte) :
    s.Requested (s.takeFrame .readStatus lane tag (State.readStatusRequest body)) := by
  unfold State.takeFrame
  split
  · exact .held ‹_›
  · split
    · unfold State.route State.readStatusRequest
      repeat' split
      all_goals exact .refused lane _ _ _ _ ‹_› rfl
    · exact .overlapped

theorem takeSupervisor_requested (s : State) (k : Kind) (lane : LaneId) (tag : Tag) (owner : State → State)
    (hk : k ≠ .readStatus) (ho : ∀ t : State, t.Answered (owner t)) : s.Requested (s.takeSupervisor k lane tag owner) := by
  refine takeFrame_requested _ _ _ _ _ hk fun t => ?_
  unfold State.supervise
  split
  · exact ho t
  · exact answered_answer t _

/-- Every outcome of every request command. -/
theorem exec_requested (c : Instr) (s t : State) (hc : requestParts c ≠ none) (e : exec c s = .next t) : s.Requested t := by
  cases c
  case vend lane tag body => exact Host.Outcome.next.inj e ▸ takeFrame_requested s _ lane tag _ (by decide) (vendRequest_answered lane tag body)
  case cancel lane tag body => exact Host.Outcome.next.inj e ▸ takeFrame_requested s _ lane tag _ (by decide) (cancelRequest_answered lane tag body)
  case collect lane tag body => exact Host.Outcome.next.inj e ▸ takeFrame_requested s _ lane tag _ (by decide) (collectRequest_answered lane body)
  case resume lane tag body => exact Host.Outcome.next.inj e ▸ takeFrame_requested s _ lane tag _ (by decide) (resumeRequest_answered lane body)
  case laneStatus lane tag body => exact Host.Outcome.next.inj e ▸ takeFrame_requested s _ lane tag _ (by decide) (laneStatusRequest_answered lane body)
  case lookup lane tag body => exact Host.Outcome.next.inj e ▸ takeFrame_requested s _ lane tag _ (by decide) (lookupRequest_answered lane body)
  case reprint lane tag body => exact Host.Outcome.next.inj e ▸ takeFrame_requested s _ lane tag _ (by decide) (reprintRequest_answered lane body)
  case quote lane tag body => exact Host.Outcome.next.inj e ▸ takeFrame_requested s _ lane tag _ (by decide) (quoteRequest_answered lane body)
  case openLane lane tag body => exact Host.Outcome.next.inj e ▸ takeFrame_requested s _ lane tag _ (by decide) (openLaneRequest_answered body)
  case closeLane lane tag body => exact Host.Outcome.next.inj e ▸ takeSupervisor_requested s _ lane tag _ (by decide) (closeLaneRequest_answered body)
  case setLane lane tag body => exact Host.Outcome.next.inj e ▸ takeSupervisor_requested s _ lane tag _ (by decide) (setLaneRequest_answered body)
  case clearLaneCount lane tag body => exact Host.Outcome.next.inj e ▸ takeSupervisor_requested s _ lane tag _ (by decide) (clearLaneCountRequest_answered body)
  case enrol lane tag body => exact Host.Outcome.next.inj e ▸ takeSupervisor_requested s _ lane tag _ (by decide) (enrolRequest_answered body)
  case amend lane tag body => exact Host.Outcome.next.inj e ▸ takeSupervisor_requested s _ lane tag _ (by decide) (amendRequest_answered body)
  case retire lane tag body => exact Host.Outcome.next.inj e ▸ takeSupervisor_requested s _ lane tag _ (by decide) (retireRequest_answered body)
  case reinstate lane tag body => exact Host.Outcome.next.inj e ▸ takeSupervisor_requested s _ lane tag _ (by decide) (reinstateRequest_answered body)
  case purge lane tag body => exact Host.Outcome.next.inj e ▸ takeSupervisor_requested s _ lane tag _ (by decide) (purgeRequest_answered body)
  case purgeRow lane tag body => exact Host.Outcome.next.inj e ▸ takeSupervisor_requested s _ lane tag _ (by decide) (purgeRowRequest_answered body)
  case restore lane tag body => exact Host.Outcome.next.inj e ▸ takeSupervisor_requested s _ lane tag _ (by decide) (restoreRequest_answered body)
  case setTariff lane tag body => exact Host.Outcome.next.inj e ▸ takeSupervisor_requested s _ lane tag _ (by decide) (setTariffRequest_answered body)
  case clearPendingTariff lane tag body => exact Host.Outcome.next.inj e ▸ takeSupervisor_requested s _ lane tag _ (by decide) (clearTariffRequest_answered body)
  case readTariff lane tag body => exact Host.Outcome.next.inj e ▸ takeSupervisor_requested s _ lane tag _ (by decide) (readTariffRequest_answered body)
  case loadKey lane tag body => exact Host.Outcome.next.inj e ▸ takeSupervisor_requested s _ lane tag _ (by decide) (loadKeyRequest_answered body)
  case dropKey lane tag body => exact Host.Outcome.next.inj e ▸ takeSupervisor_requested s _ lane tag _ (by decide) (dropKeyRequest_answered body)
  case readKeys lane tag body => exact Host.Outcome.next.inj e ▸ takeSupervisor_requested s _ lane tag _ (by decide) (readKeysRequest_answered body)
  case enableEngineB lane tag body => exact Host.Outcome.next.inj e ▸ takeSupervisor_requested s _ lane tag _ (by decide) (enableRequest_answered body)
  case grant lane tag body => exact Host.Outcome.next.inj e ▸ takeSupervisor_requested s _ lane tag _ (by decide) (grantRequest_answered body)
  case closeDay lane tag body => exact Host.Outcome.next.inj e ▸ takeSupervisor_requested s _ lane tag _ (by decide) (closeDayRequest_answered body)
  case closeMonth lane tag body => exact Host.Outcome.next.inj e ▸ takeSupervisor_requested s _ lane tag _ (by decide) (closeMonthRequest_answered body)
  case setMemoryAlarm lane tag body => exact Host.Outcome.next.inj e ▸ takeSupervisor_requested s _ lane tag _ (by decide) (setAlarmRequest_answered body)
  case clearEvents lane tag body => exact Host.Outcome.next.inj e ▸ takeSupervisor_requested s _ lane tag _ (by decide) (clearEventsRequest_answered body)
  case readStatus lane tag body => exact Host.Outcome.next.inj e ▸ takeStatus_requested s lane tag body
  case setOffice lane tag body => exact Host.Outcome.next.inj e ▸ takeSupervisor_requested s _ lane tag _ (by decide) (setOfficeRequest_answered body)
  all_goals exact absurd rfl hc

end Sys2Proof.Machine
end

