-- ==== Sys2Proof/Laws/Rows.lean ====
section
/-! SUPPORT. The law of the store's rows (`Store.RowsLawful`; R9 to R12, R17, R166, R169): what each operation on the tables, on the
store's list and on the engines does to it. -/

namespace Sys2Proof.Machine

open Sys2Proof

/-- The law of the rows between the end of the operation in progress and the next: nothing is said of the row it took. -/
def Store.RowsBetween (t : Store) : Prop :=
  sparseRising t.index ∧ t.TablesAgree ∧ t.ScanLawful

/-- The rows of a state's store are lawful. -/
abbrev State.RowsLawful (s : State) : Prop :=
  s.store.RowsLawful

theorem rowOf_unindexRow {t : Store} (hr : sparseRising t.index) (n m k) :
    (t.unindexRow n).rowOf m = some k ↔ t.rowOf m = some k ∧ k ≠ n := by
  unfold Store.unindexRow Store.rowOf
  dsimp only
  revert hr
  induction t.index with
  | nil => simp [sparseFind]
  | cons e rest ih =>
    intro hr
    obtain ⟨a, b⟩ := e
    have h1 := (List.pairwise_cons.1 hr).1
    have h2 : sparseRising rest := (List.pairwise_cons.1 hr).2
    have nf : ∀ q, a = m → sparseFind (rest.filter fun e => e.2 ≠ n) m = some q → False := by
      intro q e1 e2
      have : ∀ (l : Sparse Nat), sparseFind l m = some q → (m, q) ∈ l := by
        intro l; induction l with
        | nil => simp [sparseFind]
        | cons c l ih2 => obtain ⟨x, y⟩ := c; simp [sparseFind]; split
                          · simp_all
                          · intro hh; exact .inr (ih2 hh)
      have := (List.mem_filter.1 (this _ e2)).1
      have := h1 m (List.mem_map_of_mem (f := (·.1)) this)
      simp only at this; omega
    by_cases hb : b = n
    · rw [List.filter_cons_of_neg (by simp [hb])]
      by_cases ha : a = m
      · constructor
        · intro hh; exact (nf _ ha hh).elim
        · rintro ⟨hh, hk⟩; simp [sparseFind, ha] at hh; exact absurd (hh.symm.trans hb) hk
      · rw [ih h2]; simp [sparseFind, ha]
    · rw [List.filter_cons_of_pos (by simp [hb])]
      by_cases ha : a = m
      · simp [sparseFind, ha]; rintro rfl; exact hb
      · simp only [sparseFind, ha, if_false]; exact ih h2

theorem rowOf_indexMeter (t : Store) (m n k) : (t.indexMeter m n).rowOf k = if k = m then some n else t.rowOf k := by
  unfold Store.rowOf Store.indexMeter; dsimp only
  split
  · subst_vars; exact sparseFind_set_same _ _ _
  · exact sparseFind_set_other _ _ _ _ ‹_›

theorem cond_set (t : Store) (n k c) : (t.setCondition n c).condition k = if k = n then c else t.condition k := by
  split
  · subst_vars; simp
  · exact setCondition_condition_other _ _ _ _ ‹_›

theorem cond_of {t u : Store} {n c} (h : u.conditions = (t.setCondition n c).conditions) (k) : u.condition k = if k
    = n then c else t.condition k := by
  rw [← cond_set]; unfold Store.condition; rw [h]

@[simp] theorem rowOf_setCondition (t : Store) (n c m) : (t.setCondition n c).rowOf m = t.rowOf m := rfl

theorem cond_congr {t u : Store} (h : u.conditions = t.conditions) (n) : u.condition n = t.condition n := by
  unfold Store.condition; rw [h]

theorem rowOf_congr {t u : Store} (h : u.index = t.index) (n) : u.rowOf n = t.rowOf n := by unfold Store.rowOf; rw [h]

/-- a change of the tables -/
theorem rowsBetween_of {t u : Store} (h : Store.RowsBetween t) (hr : sparseRising u.index) (ha : u.TablesAgree)
    (ho : u.operations = t.operations)
    (hc : ∀ k, t.condition k = .undetermined → u.condition k = .undetermined) : Store.RowsBetween u := by
  refine ⟨hr, ha, ?_, ?_⟩
  · rw [ho]; exact h.2.2.1
  · rw [ho]; intro o hm hs k hk; exact hc k (h.2.2.2 o hm hs k hk)

theorem rowsBetween_congr {t u : Store} (h : Store.RowsBetween t) (h1 : u.index = t.index)
    (h2 : u.freeList = t.freeList) (h3 : u.conditions = t.conditions)
    (h4 : u.damaged = t.damaged) (h5 : u.inProgress = t.inProgress) (h6 : u.waiting = t.waiting) : Store.RowsBetween
    u := by
  refine rowsBetween_of h (h1 ▸ h.1) ?_ (by unfold Store.operations; rw [h5, h6]) (fun k hk => by rw [cond_congr h3]; exact hk)
  obtain ⟨a, b, c, d, e⟩ := h.2.1
  refine ⟨?_, ?_, ?_, ?_, ?_⟩
  · intro m n; rw [rowOf_congr h1, cond_congr h3]; exact a m n
  · intro m k n; rw [rowOf_congr h1, rowOf_congr h1]; exact b m k n
  · intro n; rw [cond_congr h3]; intro hn; obtain ⟨m, hm⟩ := c n hn; exact ⟨m, by rw [rowOf_congr h1]; exact hm⟩
  · intro n; rw [h2, cond_congr h3]; exact d n
  · intro n; rw [h4, cond_congr h3]; exact e n

theorem rowsLawful_congr {t u : Store} (h : Store.RowsLawful t) (h1 : u.index = t.index)
    (h2 : u.freeList = t.freeList) (h3 : u.conditions = t.conditions)
    (h4 : u.damaged = t.damaged) (h5 : u.inProgress = t.inProgress) (h6 : u.waiting = t.waiting) : Store.RowsLawful
    u := by
  have q := rowsBetween_congr (u := u) ⟨h.1, h.2.1, h.2.2.2⟩ h1 h2 h3 h4 h5 h6
  refine ⟨q.1, q.2.1, ?_, q.2.2⟩
  intro o n ho hn; rw [h5] at ho
  have := h.2.2.1 o n ho hn
  rw [cond_congr h3]; refine ⟨this.1, fun m hm => ?_⟩; rw [rowOf_congr h1]; exact this.2 m hm

theorem Store.RowsLawful.between {t : Store} (h : Store.RowsLawful t) : Store.RowsBetween t := ⟨h.1, h.2.1, h.2.2.2⟩

/-- taking an op: store without inProgress and its waiting list -/
theorem takeOp_rowsLawful (s : State) (op : RowOp)
    (h : Store.RowsBetween { s.store with inProgress := some ⟨op, none, none⟩ }) : Store.RowsLawful
    (s.takeOp op).store := by
  have base : ∀ o : TakenOp, o.op = op → o.row = none → Store.RowsLawful { s.store with inProgress := some o } := by
    intro o h1 h2
    have q : Store.RowsBetween { s.store with inProgress := some o } := by
      refine rowsBetween_of h h.1 ⟨h.2.1.1, h.2.1.2, h.2.1.3, h.2.1.4, h.2.1.5⟩ ?_ (fun k hk => hk)
      simp [Store.operations, h1]
    refine ⟨q.1, q.2.1, ?_, q.2.2⟩
    rintro o' n ho hr; cases ho; rw [h2] at hr; cases hr
  have alloc : ∀ (m : MeterNumber) (named : Option Nat), op.newMeter = some m → Store.RowsLawful (match s.store.allocation m named with
      | some n =>
        { s with store := { (s.store.setCondition n .allocated) with
            freeList := s.store.freeList.filter (· ≠ n), inProgress := some { op := op, row := some n } } }
      | none => { s with store := { s.store with inProgress := some { op := op } } }).store := by
    intro m named hm
    split
    · rename_i n hn
      unfold Store.allocation at hn
      split at hn
      · rename_i hc
        have hmem : n ∈ s.store.freeList := List.mem_of_head? hn
        obtain ⟨a, b, c, d, e⟩ := h.2.1
        have hf : s.store.condition n = .free := (d n).1 hmem
        let u : Store := { (s.store.setCondition n .allocated) with
            freeList := s.store.freeList.filter (· ≠ n), inProgress := some { op := op, row := some n } }
        have hcu : ∀ k, u.condition k = if k = n then .allocated else s.store.condition k := fun k => cond_of (t := s.store) (n := n) (c := .allocated) rfl k
        have hru : ∀ k, u.rowOf k = s.store.rowOf k := fun k => rfl
        have q : Store.RowsBetween u := by
          refine rowsBetween_of h h.1 ⟨?_, ?_, ?_, ?_, ?_⟩ (by simp [Store.operations, u]; rfl) ?_
          · intro m' k hk; rw [hcu]; rw [hru] at hk
            have q1 : s.store.condition k = .record := a m' k hk; split
            · rename_i x; subst x; rw [hf] at q1; cases q1
            · exact q1
          · exact b
          · intro k hk; rw [hcu] at hk; split at hk
            · cases hk
            · exact c k hk
          · intro k; rw [hcu]; simp only [u, List.mem_filter]; split
            · rename_i x; subst x; simp
            · rename_i x; have := d k; simp [x]; exact this
          · intro k hk; rw [hcu]; have q1 : s.store.condition k = .record := e k hk; split
            · rename_i x; subst x; rw [hf] at q1; cases q1
            · exact q1
          · intro k hk; rw [hcu]; split
            · rename_i x; subst x; exact absurd (hf.symm.trans hk) (by simp)
            · exact hk
        refine ⟨q.1, q.2.1, ?_, q.2.2⟩
        rintro o k ho hr
        cases ho; cases hr
        refine ⟨by rw [hcu]; simp, fun m' hm' => ?_⟩
        rw [hm] at hm'; cases hm'
        rw [hru]; simpa using hc.1
      · cases hn
    · exact base _ rfl rfl
  unfold State.takeOp
  split
  · exact base _ rfl rfl
  · exact alloc _ _ rfl
  · exact alloc _ _ rfl
  · exact base _ rfl rfl

theorem place_rowsLawful {s : State} {op : RowOp} (h : Store.RowsLawful s.store) (hop : op.startupStep = none) :
    Store.RowsLawful (s.place op).store := by
  unfold State.place; split
  · rename_i hn
    apply takeOp_rowsLawful _ _
    refine ⟨h.1, ⟨h.2.1.1, h.2.1.2, h.2.1.3, h.2.1.4, h.2.1.5⟩, ?_, ?_⟩
    · have := h.2.2.2.1; simp [Store.operations, hn] at this; simp [Store.operations, hop]; exact this
    · intro o ho hs k hk; simp [Store.operations] at ho
      rcases ho with rfl | ho
      · simp [hop] at hs
      · exact h.2.2.2.2 o (by simp [Store.operations, ho]) hs k hk
  · refine ⟨h.1, ⟨h.2.1.1, h.2.1.2, h.2.1.3, h.2.1.4, h.2.1.5⟩, h.2.2.1, ?_, ?_⟩
    · have := h.2.2.2.1; simp [Store.operations] at this; simp [Store.operations, List.countP_append, hop]; omega
    · intro o ho hs k hk; simp [Store.operations] at ho
      rcases ho with ho | ho | rfl
      · exact h.2.2.2.2 o (by simp [Store.operations, ho]) hs k hk
      · exact h.2.2.2.2 o (by simp [Store.operations, ho]) hs k hk
      · simp [hop] at hs

/-- the operation finishing; the rest -/
theorem finishOp_rowsLawful {s : State} (h : Store.RowsBetween s.store) : Store.RowsLawful s.finishOp.store := by
  unfold State.finishOp; split
  · rename_i hw
    refine ⟨h.1, ⟨h.2.1.1, h.2.1.2, h.2.1.3, h.2.1.4, h.2.1.5⟩, ?_, ?_, ?_⟩
    · intro o n ho; cases ho
    · simp [Store.operations, hw]
    · intro o ho; simp [Store.operations, hw] at ho
  · rename_i op rest hw
    apply takeOp_rowsLawful _ _
    refine ⟨h.1, ⟨h.2.1.1, h.2.1.2, h.2.1.3, h.2.1.4, h.2.1.5⟩, ?_, ?_⟩
    · have := h.2.2.1; simp [Store.operations, hw] at this ⊢; omega
    · intro o ho hs k hk; simp [Store.operations] at ho
      exact h.2.2.2 o (by simp [Store.operations, hw, ho]) hs k hk

theorem unlistOrphan_rowsBetween {t : Store} (n) (h : Store.RowsBetween t) : Store.RowsBetween (t.unlistOrphan n) :=
    by
  unfold Store.unlistOrphan; dsimp only; repeat' split
  all_goals exact rowsBetween_congr h rfl rfl rfl rfl rfl rfl

theorem undamage_rowsBetween {t : Store} (n) (h : Store.RowsBetween t) : Store.RowsBetween (t.undamage n) := by
  refine rowsBetween_of h h.1 ⟨h.2.1.1, h.2.1.2, h.2.1.3, h.2.1.4, ?_⟩ rfl (fun k hk => hk)
  intro k hk; exact h.2.1.5 k (List.mem_filter.1 hk).1

theorem mem_filter_ne (l : List Nat) (n k) : k ∈ l.filter (· ≠ n) ↔ k ∈ l ∧ k ≠ n := by simp

/-- a row becomes an orphan -/
theorem orphan_tables {t : Store} (n) (hr : sparseRising t.index) (h : t.TablesAgree) (hf : t.condition n ≠ .free) :
    ((((t.unindexRow n).undamage n).setCondition n .orphan).listOrphan n).TablesAgree := by
  have hc : ∀ k, (((((t.unindexRow n).undamage n).setCondition n .orphan).listOrphan n)).condition k = if k = n then .orphan else t.condition k := by
    intro k; rw [← cond_set]; apply cond_congr; unfold Store.listOrphan; repeat' split
    all_goals rfl
  have hi : ∀ m k, (((((t.unindexRow n).undamage n).setCondition n .orphan).listOrphan n)).rowOf m = some k ↔ t.rowOf m = some k ∧ k ≠ n := by
    intro m k; rw [← rowOf_unindexRow hr]; rw [rowOf_congr]; unfold Store.listOrphan; repeat' split
    all_goals rfl
  have hfl : (((((t.unindexRow n).undamage n).setCondition n .orphan).listOrphan n)).freeList = t.freeList := by
    unfold Store.listOrphan; repeat' split
    all_goals rfl
  have hd : (((((t.unindexRow n).undamage n).setCondition n .orphan).listOrphan n)).damaged = t.damaged.filter (· ≠ n) := by
    unfold Store.listOrphan; repeat' split
    all_goals rfl
  obtain ⟨a, b, c, d, e⟩ := h
  refine ⟨?_, ?_, ?_, ?_, ?_⟩
  · intro m k; rw [hi, hc]; rintro ⟨h1, h2⟩; rw [if_neg h2]; exact a m k h1
  · intro m k j; rw [hi, hi]; rintro ⟨h1, h2⟩ ⟨h3, h4⟩; exact b _ _ _ h1 h3
  · intro k; rw [hc]; split
    · intro x; cases x
    · intro x; obtain ⟨m, hm⟩ := c k x; exact ⟨m, (hi m k).2 ⟨hm, ‹_›⟩⟩
  · intro k; rw [hc, hfl, d]; split
    · subst_vars; simp [hf]
    · rfl
  · intro k; rw [hd, hc, mem_filter_ne]; rintro ⟨h1, h2⟩; rw [if_neg h2]; exact e k h1

theorem listOrphan_index (t : Store) (n) : (t.listOrphan n).index = t.index ∧ (t.listOrphan n).conditions =
    t.conditions ∧ (t.listOrphan n).operations = t.operations := by
  unfold Store.listOrphan; repeat' split
  all_goals exact ⟨rfl, rfl, rfl⟩

theorem makeOrphan_rowsBetween {s : State} (n) (h : Store.RowsBetween s.store) (hf : s.store.condition n = .record)
    : Store.RowsBetween (s.makeOrphan n).store := by
  unfold State.makeOrphan; dsimp only
  refine rowsBetween_of h ?_ (orphan_tables n h.1 h.2.1 (by rw [hf]; simp)) ?_ ?_
  · rw [(listOrphan_index _ _).1]; exact List.Pairwise.sublist (List.Sublist.map _ List.filter_sublist) h.1
  · rw [(listOrphan_index _ _).2.2]; rfl
  · intro k hk; rw [cond_congr (listOrphan_index _ _).2.1, cond_set]; split
    · subst_vars; rw [hf] at hk; cases hk
    · exact hk

theorem markDamaged_rowsBetween {s : State} (n) (h : Store.RowsBetween s.store) (hf : s.store.condition n = .record)
    : Store.RowsBetween (s.markDamaged n).store := by
  unfold State.markDamaged; split
  · exact h
  · refine rowsBetween_of h h.1 ⟨h.2.1.1, h.2.1.2, h.2.1.3, h.2.1.4, ?_⟩ rfl (fun k hk => hk)
    intro k hk; simp only [mem_insertRising] at hk; rcases hk with rfl | hk
    · exact hf
    · exact h.2.1.5 k hk

theorem readRecordRow_rowsBetween {s : State} (n d) (h : Store.RowsBetween s.store)
    (hf : s.store.condition n = .record) : Store.RowsBetween (s.readRecordRow n d).store := by
  have h0 : Store.RowsBetween (s.readWords n d).store := rowsBetween_congr h rfl rfl rfl rfl rfl rfl
  unfold State.readRecordRow; split
  · exact makeOrphan_rowsBetween n h0 hf
  · exact markDamaged_rowsBetween n h0 hf
  · exact h0

/-- a purged row -/
theorem release_rowsBetween {t : Store} (n) (h : Store.RowsBetween t)
    (hc : t.condition n = .record ∨ t.condition n = .orphan) (hd : n ∉ t.damaged) :
    Store.RowsBetween ((t.unindexRow n).release n) := by
  have k1 : ∀ k, ((t.unindexRow n).release n).condition k = if k = n then .free else t.condition k := fun k => cond_of (t := t) (n := n) (c := .free) rfl k
  have k2 : ∀ m k, ((t.unindexRow n).release n).rowOf m = some k ↔ t.rowOf m = some k ∧ k ≠ n := fun m k => rowOf_unindexRow h.1 n m k
  have hu : t.condition n ≠ .undetermined := by rcases hc with hc | hc <;> rw [hc] <;> simp
  obtain ⟨a, b, c, d, e⟩ := h.2.1
  refine rowsBetween_of h (List.Pairwise.sublist (List.Sublist.map _ List.filter_sublist) h.1) ⟨?_, ?_, ?_, ?_, ?_⟩ rfl ?_
  · intro m k; rw [k1, k2]; rintro ⟨h1, h2⟩; rw [if_neg h2]; exact a _ _ h1
  · intro m k j; rw [k2, k2]; rintro ⟨h1, h2⟩ ⟨h3, h4⟩; exact b _ _ _ h1 h3
  · intro k; rw [k1]; split
    · intro x; cases x
    · intro x; obtain ⟨m, hm⟩ := c k x; exact ⟨m, (k2 m k).2 ⟨hm, ‹_›⟩⟩
  · intro k; rw [k1]; simp only [Store.release, mem_insertRising]; split
    · subst_vars; simp
    · rename_i x; simp [x]; exact d k
  · intro k hk; rw [k1]; split
    · rename_i x; subst x; exact absurd hk hd
    · exact e k hk
  · intro k hk; rw [k1]; split
    · rename_i x; subst x; exact absurd hk hu
    · exact hk

theorem release_rowsBetween' {t : Store} (n) (h : Store.RowsBetween t) (hc : t.condition n = .orphan) :
    Store.RowsBetween (t.release n) := by
  have hd : n ∉ t.damaged := fun x => by have := h.2.1.5 n x; rw [hc] at this; cases this
  have k1 : ∀ k, (t.release n).condition k = if k = n then .free else t.condition k := fun k => cond_of (t := t) (n := n) (c := .free) rfl k
  obtain ⟨a, b, c, d, e⟩ := h.2.1
  refine rowsBetween_of h h.1 ⟨?_, b, ?_, ?_, ?_⟩ rfl ?_
  · intro m k h1; rw [k1]; have := a m k h1; split
    · subst_vars; rw [hc] at this; cases this
    · exact this
  · intro k; rw [k1]; split
    · intro x; cases x
    · exact c k
  · intro k; rw [k1]; simp only [Store.release, mem_insertRising]; split
    · subst_vars; simp
    · rename_i x; simp [x]; exact d k
  · intro k hk; rw [k1]; split
    · rename_i x; subst x; exact absurd hk hd
    · exact e k hk
  · intro k hk; rw [k1]; split
    · rename_i x; subst x; rw [hc] at hk; cases hk
    · exact hk

/-- a row taken as RECORD for a meter that had none -/
theorem index_tables {t : Store} (n m) (h : t.TablesAgree) (hm : t.rowOf m = none) (hn : t.condition n ≠ .record)
    (hf : t.condition n ≠ .free) :
    ((t.setCondition n .record).indexMeter m n).TablesAgree := by
  have k1 : ∀ k, ((t.setCondition n .record).indexMeter m n).condition k = if k = n then .record else t.condition k := fun k => cond_of (t := t) (n := n) (c := .record) rfl k
  have k2 : ∀ j, ((t.setCondition n .record).indexMeter m n).rowOf j = if j = m then some n else t.rowOf j := fun j => rowOf_indexMeter _ _ _ _
  obtain ⟨a, b, c, d, e⟩ := h
  refine ⟨?_, ?_, ?_, ?_, ?_⟩
  · intro j k; rw [k1, k2]; split
    · intro x; cases x; simp
    · intro x; split
      · rfl
      · exact a j k x
  · intro j i k; rw [k2, k2]; split <;> split
    · intros; subst_vars; rfl
    · intro x y; cases x; exact absurd (a _ _ y) hn
    · intro x y; cases y; exact absurd (a _ _ x) hn
    · exact b j i k
  · intro k; rw [k1]; split
    · intro _; subst_vars; exact ⟨m, by rw [k2]; simp⟩
    · intro x; obtain ⟨j, hj⟩ := c k x; refine ⟨j, ?_⟩; rw [k2, if_neg]; exact hj
      rintro rfl; rw [hm] at hj; cases hj
  · intro k; rw [k1]; have := d k; split
    · subst_vars; constructor
      · intro x; exact absurd ((d k).1 x) hf
      · intro x; cases x
    · exact this
  · intro k hk; rw [k1]; split
    · rfl
    · exact e k hk

theorem index_rowsBetween {t : Store} (n m) (h : Store.RowsBetween t) (hm : t.rowOf m = none)
    (hn : t.condition n = .allocated ∨ t.condition n = .orphan) :
    Store.RowsBetween ((t.setCondition n .record).indexMeter m n) := by
  refine rowsBetween_of h (sparseSet_rising _ _ _ h.1) (index_tables n m h.2.1 hm ?_ ?_) rfl ?_
  · rcases hn with h | h <;> rw [h] <;> simp
  · rcases hn with h | h <;> rw [h] <;> simp
  · intro k hk
    show (t.setCondition n .record).condition k = _
    rw [cond_set]; split
    · subst_vars; rcases hn with h | h <;> rw [h] at hk <;> cases hk
    · exact hk

theorem commitRow_rowsBetween {t : Store} (n m) (h : Store.RowsBetween t) : Store.RowsBetween (t.commitRow n m) := by
  unfold Store.commitRow; split
  · exact undamage_rowsBetween _ h
  · split
    · exact unlistOrphan_rowsBetween _ (index_rowsBetween _ _ h (by simp_all) (.inr ‹_›))
    · exact h
  · exact h

theorem congr_rows {s t : State} (h : s.RowsLawful) (h1 : t.store = s.store) : t.RowsLawful := by
  unfold State.RowsLawful; rw [h1]; exact h

theorem scrub_rows {s t : State} {c} (h : s.RowsLawful) (h1 : t.store = { s.store with scrubber := c }) :
    t.RowsLawful := by
  unfold State.RowsLawful; rw [h1]; exact rowsLawful_congr h rfl rfl rfl rfl rfl rfl

theorem place_rows {s : State} {op} (h : s.RowsLawful) (ho : op.startupStep = none) : (s.place op).RowsLawful :=
  place_rowsLawful h ho

theorem minuteStep_rows {s : State} (h : s.RowsLawful) : (s.minuteStep).RowsLawful := by
  unfold State.minuteStep; dsimp only
  split
  · exact place_rows (congr_rows h (by split <;> rfl)) rfl
  · exact congr_rows h (by split <;> rfl)

theorem settleMinute_rows {s : State} (h : s.RowsLawful) : (s.settleMinute).RowsLawful := by
  unfold State.settleMinute; split
  · exact minuteStep_rows h
  · exact h

theorem settleTick_rows {s : State} (h : s.RowsLawful) : (s.settleTick).RowsLawful :=
  settleMinute_rows (congr_rows h rfl)

theorem checkOverdue_rows {s : State} (h : s.RowsLawful) : (s.checkOverdue).RowsLawful := by
  unfold State.checkOverdue; split
  · exact place_rows (congr_rows h rfl) rfl
  · exact h

theorem consultLocks_rows {s : State} {op} (h : s.RowsLawful) : (s.consultLocks op).RowsLawful := by
  unfold State.consultLocks; repeat' split
  · exact place_rows h rfl
  · exact congr_rows h (by simp)
  · exact congr_rows h rfl
  · exact place_rows h rfl

theorem grantClaim_rows {s : State} {e b} (h : s.RowsLawful) : (s.grantClaim e b).RowsLawful := by
  unfold State.grantClaim; dsimp only; split
  · exact place_rows (congr_rows h rfl) rfl
  · exact congr_rows h rfl

theorem claim_rows {s : State} {e b} (h : s.RowsLawful) : (s.claim e b).RowsLawful := by
  unfold State.claim; split
  · exact grantClaim_rows h
  · exact congr_rows h rfl

theorem startItem_rows {s : State} {e b} (h : s.RowsLawful) : (s.startItem e b).RowsLawful := by
  unfold State.startItem; split
  · exact claim_rows (congr_rows h rfl)
  · exact congr_rows h rfl

theorem endItem_rows {s : State} {e b o} (h : s.RowsLawful) : (s.endItem e b o).RowsLawful := by
  unfold State.endItem; dsimp only; repeat' split
  · exact congr_rows h rfl
  · exact congr_rows h rfl
  · exact startItem_rows h

theorem refuseItem_rows {s : State} {e b o} (h : s.RowsLawful) : (s.refuseItem e b o).RowsLawful :=
  endItem_rows (congr_rows h (by simp))

theorem continueTokens_rows {s : State} {e b} (h : s.RowsLawful) : (s.continueTokens e b).RowsLawful := by
  unfold State.continueTokens; split
  · exact congr_rows h rfl
  · exact place_rows (congr_rows h rfl) rfl
  · exact congr_rows h rfl

theorem checkItem_rows {s : State} {e b i n r} (h : s.RowsLawful) : (s.checkItem e b i n r).RowsLawful := by
  unfold State.checkItem State.passItem
  repeat' split
  · exact refuseItem_rows h
  · exact refuseItem_rows h
  · exact refuseItem_rows h
  · exact continueTokens_rows (congr_rows h (by simp))

theorem finishOp_rows {s : State} (h : Store.RowsBetween s.store) : s.finishOp.RowsLawful := finishOp_rowsLawful h

/-- A read of a meter, a row condition. -/
theorem readMeter_rowsBetween (s : State) (m d) (h : Store.RowsBetween s.store) : Store.RowsBetween
    (s.readMeter m d).1.store := by
  unfold State.readMeter; split
  · exact h
  · rename_i n hn
    have := h.2.1.1 m n hn
    repeat' split
    · exact h
    all_goals exact readRecordRow_rowsBetween n d h this

theorem readMeter_ok {s : State} {m d t n r} (h : Store.RowsBetween s.store) (e : s.readMeter m d = (t, .ok (n, r))) :
    t.store.condition n = .record ∧ n ∉ t.store.damaged ∧ t.store.index = s.store.index := by
  unfold State.readMeter at e; split at e
  · cases e
  · rename_i k hk
    have hc := h.2.1.1 m k hk
    split at e
    · cases e
    · rename_i hd
      split at e
      · cases e
      · cases e
      · cases e
      · rename_i r' hr
        cases e
        unfold State.readRecordRow; rw [hr]; dsimp only
        exact ⟨hc, by simpa [State.readWords, State.countErrors, Store.countErrors] using hd, rfl⟩

theorem rowsBetween_store {s t : State} (h : Store.RowsBetween s.store) (e : t.store = s.store) : Store.RowsBetween
    t.store :=
  e ▸ h

theorem edit_rows {s : State} {m d f} (h : Store.RowsBetween s.store) : (s.editRecord m d f).RowsLawful := by
  have hm := readMeter_rowsBetween s m d h
  unfold State.editRecord; split <;> rename_i e <;> (rw [e] at hm; dsimp only at hm)
  · exact congr_rows (finishOp_rows hm) (by simp)
  · split
    · exact congr_rows (finishOp_rows (s := State.writeRecord _ _ _) (rowsBetween_store hm rfl)) (by simp; rfl)
    · exact congr_rows (finishOp_rows hm) (by simp)

theorem purge_rows {s : State} {m d} (h : Store.RowsBetween s.store) : (s.purgeRecord m d).RowsLawful := by
  have hm := readMeter_rowsBetween s m d h
  unfold State.purgeRecord; split <;> rename_i e <;> (rw [e] at hm; dsimp only at hm)
  · exact congr_rows (finishOp_rows hm) (by simp)
  · have hk := readMeter_ok h e
    split
    · refine congr_rows (finishOp_rows ?_) (by simp; rfl)
      exact release_rowsBetween _ hm (.inl hk.1) hk.2.1
    · exact congr_rows (finishOp_rows hm) (by simp)

theorem create_rowsBetween {s : State} {n r} (h : Store.RowsBetween s.store) (hm : s.store.rowOf r.meter = none)
    (hn : s.store.condition n = .allocated ∨ s.store.condition n = .orphan) : Store.RowsBetween
    (s.createRecord n r).store :=
  index_rowsBetween _ _ h hm hn

theorem restoreIndexed_rows {s : State} {f n d} (h : Store.RowsBetween s.store) :
    (s.restoreIndexed f n d).RowsLawful := by
  unfold State.restoreIndexed; dsimp only
  refine congr_rows (finishOp_rows ?_) (by simp; rfl)
  refine undamage_rowsBetween n ?_
  exact rowsBetween_congr h rfl rfl rfl rfl rfl rfl

theorem restoreOrphan_rows {s : State} {f n d} (h : Store.RowsBetween s.store)
    (hm : s.store.rowOf f.image.meter = none) (hn : s.store.condition n = .orphan) :
    (s.restoreOrphan f n d).RowsLawful := by
  unfold State.restoreOrphan; dsimp only
  refine congr_rows (finishOp_rows ?_) (by simp; rfl)
  refine unlistOrphan_rowsBetween n ?_
  refine create_rowsBetween (s := s.countErrors _) (rowsBetween_congr h rfl rfl rfl rfl rfl rfl) hm (.inr hn)

theorem readOrFault_store (s : State) (id d b) : Store.RowsLawful s.store → Store.RowsLawful
    (s.readOrFault id d b).store := by
  intro h; unfold State.readOrFault; split
  all_goals exact rowsLawful_congr h rfl rfl rfl rfl rfl rfl

theorem readOrFault_rowsBetween (s : State) (id d b) : Store.RowsBetween s.store → Store.RowsBetween
    (s.readOrFault id d b).store := by
  intro h; unfold State.readOrFault; split
  all_goals exact rowsBetween_congr h rfl rfl rfl rfl rfl rfl

/-- placing start-up's next operation when none is left -/
def NoStart (t : Store) : Prop := ∀ o ∈ t.operations, o.startupStep = none

theorem place_start {s : State} {op : RowOp} (h : Store.RowsLawful s.store) (hn : NoStart s.store)
    (hk : ∀ k, (∀ n, op = .scan n → n ≤ k) → s.store.condition k = .undetermined) : (s.place op).RowsLawful := by
  have h0 : ∀ l : List RowOp, (∀ o ∈ l, o.startupStep = none) → l.countP (fun o => o.startupStep.isSome) = 0 := by
    intro l hl; rw [List.countP_eq_zero]; intro o ho; simp [hl o ho]
  unfold State.RowsLawful State.place; split
  · rename_i hp
    apply takeOp_rowsLawful _ _
    refine ⟨h.1, ⟨h.2.1.1, h.2.1.2, h.2.1.3, h.2.1.4, h.2.1.5⟩, ?_, ?_⟩
    · have := h0 s.store.waiting (fun o ho => hn o (by simp [Store.operations, ho]))
      simp [Store.operations, List.countP_cons, this]; try (split <;> simp)
    · intro o ho hs k hk'; simp [Store.operations] at ho
      rcases ho with rfl | ho
      · exact hk k hk'
      · rw [hn o (by simp [Store.operations, ho])] at hs; cases hs
  · rename_i o1 hp
    refine ⟨h.1, ⟨h.2.1.1, h.2.1.2, h.2.1.3, h.2.1.4, h.2.1.5⟩, h.2.2.1, ?_, ?_⟩
    · have := h0 s.store.operations hn
      show List.countP _ ((s.store.inProgress.map (·.op)).toList ++ (s.store.waiting ++ [op])) ≤ 1
      rw [← List.append_assoc, List.countP_append]
      have h2 : List.countP (fun o => o.startupStep.isSome) ((s.store.inProgress.map (·.op)).toList ++ s.store.waiting) = 0 := this
      rw [h2]; simp [List.countP_cons]; try (split <;> simp)
    · intro o ho hs k hk'; simp [Store.operations] at ho
      rcases ho with ho | ho | rfl
      · rw [hn o (by simp [Store.operations, ho])] at hs; cases hs
      · rw [hn o (by simp [Store.operations, ho])] at hs; cases hs
      · exact hk k hk'

theorem takeOp_ops (s : State) (op) : (s.takeOp op).store.operations = op :: s.store.waiting := by
  unfold State.takeOp; dsimp only; split <;> try rfl
  all_goals (split <;> rfl)

theorem takeOp_cond (s : State) (op) (hc : op.newMeter = none) : (s.takeOp op).store.conditions = s.store.conditions
    := by
  unfold State.takeOp; split <;> first | rfl | cases hc

theorem finish_ops (s : State) : s.finishOp.store.operations = s.store.waiting := by
  unfold State.finishOp; split
  · rename_i h; simp [Store.operations, h]
  · rename_i h; rw [takeOp_ops, h]

/-- the current start-up operation leaves none behind -/
theorem noStart_after {s : State} {op : RowOp} (h : s.store.ScanLawful) (hc : s.current = some op)
    (hs : op.startupStep.isSome) : NoStart s.finishOp.store := by
  have h1 := h.1
  unfold State.current at hc
  intro o ho; rw [finish_ops] at ho
  simp [Store.operations, hc, hs] at h1
  simpa using h1 o ho

theorem finish_cond (s : State) (k) (hf : Store.RowsBetween s.store) : s.store.condition k = .undetermined →
    s.finishOp.store.condition k = .undetermined := by
  intro hu
  unfold State.finishOp; split
  · exact hu
  · unfold State.takeOp; dsimp only
    have al : ∀ (q : Store) (m named n), q.freeList = s.store.freeList → q.allocation m named = some n → k ≠ n := by
      intro q m named n hq hn; unfold Store.allocation at hn; split at hn
      · rw [hq] at hn; have := (hf.2.1.4 n).1 (List.mem_of_head? hn); rintro rfl; rw [hu] at this; cases this
      · cases hn
    split
    · exact hu
    · split
      · rename_i hn; have hne := al _ _ _ _ rfl hn
        exact (cond_of (t := s.store) (n := _) (c := .allocated) rfl k).trans (by rw [if_neg hne]; exact hu)
      · exact hu
    · split
      · rename_i hn; have hne := al _ _ _ _ rfl hn
        exact (cond_of (t := s.store) (n := _) (c := .allocated) rfl k).trans (by rw [if_neg hne]; exact hu)
      · exact hu
    · exact hu

/-- An operation that a request waits for is none of start-up's and no engine's. -/
theorem answers_plain {op : RowOp} (h : op.answers = true) : op.startupStep = none ∧ op.errand = none := by
  unfold RowOp.answers at h
  split at h <;> first | exact ⟨rfl, rfl⟩ | cases h

/-- No outcome of a request breaks the law of the rows. -/
theorem answered_rows {s t : State} (h : s.RowsLawful) (g : s.Answered t) : t.RowsLawful := by
  cases g with
  | replied u c b hu => exact congr_rows h (by rw [hu]; simp)
  | placed u op hu ha => exact place_rows (congr_rows h (by rw [hu])) (answers_plain ha).1
  | consulted op => exact consultLocks_rows h
  | enciphered r => exact congr_rows h rfl
  | dropped i g => exact place_rows (congr_rows h rfl) rfl
  | enabled c b => exact congr_rows h (by simp)

/-- No request command breaks the law of the rows. -/
theorem requested_rows {s t : State} (h : s.RowsLawful) (g : s.Requested t) : t.RowsLawful := by
  cases g with
  | held => exact h
  | overlapped => exact congr_rows h (by simp)
  | refused lane hd u c b hi hu => exact congr_rows (settleTick_rows h) (by rw [hu]; simp)
  | taken lane hd t hi ho ht => exact answered_rows (s := s.settleTick.beginExchange lane hd) (congr_rows (settleTick_rows h) rfl) ht

end Sys2Proof.Machine
end

