-- ==== Sys2Proof/Laws/Work.lean ====
section
/-! SUPPORT. The law of the work in hand (`State.WorkLawful`; R72, R112, R148, R174): what each operation on the store, the cipher unit,
the locks, the engines and the link does to it. -/

namespace Sys2Proof.Machine

open Sys2Proof

/-- The law of the work in hand inside a command: `k` answers of the request in hand are still to be asked for, and the engine
`x` is between its errands. -/
structure State.WorkExcept (k : Nat) (x : Option EngineId) (s : State) : Prop where
  store : s.store.inProgress = none → s.store.waiting = []
  cipher : s.cipher.busy = none → s.cipher.waiting = []
  errand : ∀ e, s.errands.filter (fun p => p.1 = e) =
    if x = some e then [] else ((s.busyEngine e).map fun b => (e, b.stage)).toList
  busy : ∀ e b, x ≠ some e → s.busyEngine e = some b → b.Lawful
  link : s.answersAwaited + k = s.isWorking.toNat

/-- The law with nothing left to ask for. -/
abbrev State.WorkDone (s : State) : Prop :=
  State.WorkExcept 0 none s

/-- The law with the answer of the request in hand still to be asked for. -/
abbrev State.WorkOwed (s : State) : Prop :=
  State.WorkExcept 1 none s

/-- Between commands nothing is left to ask for. -/
theorem workLawful_iff (s : State) : s.WorkLawful ↔ s.WorkDone :=
  ⟨fun h => ⟨h.1, h.2, fun e => by simpa using h.3 e, fun e b _ => h.4 e b, h.5⟩,
    fun h => ⟨h.1, h.2, fun e => by simpa using h.3 e, fun e b => h.4 e b (by simp), h.5⟩⟩

theorem workExcept_congr {k x} {s t : State} (h : State.WorkExcept k x s) (h1 : t.engines = s.engines)
    (h2 : t.locks.waiting = s.locks.waiting)
    (h3 : t.locks.supervisor = s.locks.supervisor) (h4 : t.cipher = s.cipher)
    (h5 : t.store.inProgress.map (·.op) = s.store.inProgress.map (·.op))
    (h6 : t.store.waiting = s.store.waiting) (h7 : t.isWorking = s.isWorking) : State.WorkExcept k x t := by
  have ho : t.store.operations = s.store.operations := by unfold Store.operations; rw [h5, h6]
  have he : t.errands = s.errands := by unfold State.errands; rw [h2, ho, h4]
  refine ⟨?_, ?_, ?_, ?_, ?_⟩
  · intro hn; rw [h6]; apply h.store
    rw [hn] at h5; cases hq : s.store.inProgress
    · rfl
    · rw [hq] at h5; cases h5
  · rw [h4]; exact h.cipher
  · intro e; rw [he, busyEngine_of_engines h1]; exact h.errand e
  · intro e b hx; rw [busyEngine_of_engines h1]; exact h.busy e b hx
  · unfold State.answersAwaited; rw [ho, h4, h3, h7]; exact h.link

theorem isWorking_of {s t : State} (h : t.exchange = s.exchange) : t.isWorking = s.isWorking := by
  unfold State.isWorking; rw [h]

/-- everything but the fields that matter -/
theorem workExcept_same {k x} {s t : State} (h : State.WorkExcept k x s) (h1 : t.engines = s.engines)
    (h2 : t.locks = s.locks) (h4 : t.cipher = s.cipher)
    (h5 : t.store.inProgress = s.store.inProgress) (h6 : t.store.waiting = s.store.waiting)
    (h7 : t.exchange = s.exchange) : State.WorkExcept k x t :=
  workExcept_congr h h1 (by rw [h2]) (by rw [h2]) h4 (by rw [h5]) h6 (isWorking_of h7)

theorem place_ops {s : State} (op) (h : s.store.inProgress = none → s.store.waiting = []) :
    (s.place op).store.operations = s.store.operations ++ [op] := by
  unfold State.place; split
  · rename_i hn; rw [takeOp_ops, h hn]; simp [Store.operations, hn, h hn]
  · simp [Store.operations]

theorem takeOp_inProgress (s : State) (op) : (s.takeOp op).store.inProgress ≠ none := by
  unfold State.takeOp; dsimp only; split <;> (try simp)
  all_goals (split <;> simp)

theorem takeOp_waiting (s : State) (op) : (s.takeOp op).store.waiting = s.store.waiting := by
  unfold State.takeOp; dsimp only; split <;> (try rfl)
  all_goals (split <;> rfl)

theorem place_inProgress (s : State) (op) : (s.place op).store.inProgress ≠ none := by
  unfold State.place; split
  · exact takeOp_inProgress _ _
  · rename_i h; simp [h]

theorem finish_idle (s : State) : s.finishOp.store.inProgress = none → s.finishOp.store.waiting = [] := by
  unfold State.finishOp; split
  · rename_i h; intro _; exact h
  · intro h; exact absurd h (takeOp_inProgress _ _)

theorem filter_parts {s : State} {e} (h : s.errands.filter (fun p => p.1 = e) = []) :
    (s.locks.waiting.map (fun c => (c.1, Stage.claim))).filter (fun p => p.1 = e) = []
    ∧ (s.store.operations.filterMap RowOp.errand).filter (fun p => p.1 = e) = []
    ∧ (s.cipher.requests.filterMap CipherRequest.errand).filter (fun p => p.1 = e) = [] := by
  unfold State.errands at h
  rw [List.filter_append, List.filter_append, List.append_eq_nil_iff, List.append_eq_nil_iff] at h
  exact ⟨h.1.1, h.1.2, h.2⟩

/-- an operation nobody waits for -/
theorem place_work_plain {k x} {s : State} {op} (h : State.WorkExcept k x s) (h1 : op.errand = none)
    (h2 : op.answers = false) : State.WorkExcept k x (s.place op) := by
  have ho := place_ops op h.store
  refine ⟨fun hn => absurd hn (place_inProgress _ _), by simpa using h.cipher, ?_, ?_, ?_⟩
  · intro e
    have : (s.place op).errands = s.errands := by
      unfold State.errands; rw [ho]; simp [h1]
    rw [this, busyEngine_of_engines (s := s) (by simp)]; exact h.errand e
  · intro e b hx; rw [busyEngine_of_engines (s := s) (by simp)]; exact h.busy e b hx
  · unfold State.answersAwaited; rw [ho, isWorking_of (s := s) (by simp)]
    have := h.link; unfold State.answersAwaited at this
    simp [List.countP_append, h2]; simpa using this

/-- the operation that the request in hand waits for -/
theorem place_work_link {k x} {s : State} {op} (h : State.WorkExcept (k + 1) x s) (h1 : op.errand = none)
    (h2 : op.answers = true) : State.WorkExcept k x (s.place op) := by
  have ho := place_ops op h.store
  refine ⟨fun hn => absurd hn (place_inProgress _ _), by simpa using h.cipher, ?_, ?_, ?_⟩
  · intro e
    have : (s.place op).errands = s.errands := by
      unfold State.errands; rw [ho]; simp [h1]
    rw [this, busyEngine_of_engines (s := s) (by simp)]; exact h.errand e
  · intro e b hx; rw [busyEngine_of_engines (s := s) (by simp)]; exact h.busy e b hx
  · unfold State.answersAwaited; rw [ho, isWorking_of (s := s) (by simp)]
    have := h.link; unfold State.answersAwaited at this
    simp [List.countP_append, h2] at this ⊢; omega

/-- the operation that an engine waits for -/
theorem place_work_engine {k e st} {s : State} {op} {b : BusyEngine} (h : State.WorkExcept k (some e) s)
    (h1 : op.errand = some (e, st)) (h2 : op.answers = false)
    (hb : s.busyEngine e = some b) (hs : b.stage = st) (hl : b.Lawful) : State.WorkExcept k none (s.place op) := by
  have ho := place_ops op h.store
  refine ⟨fun hn => absurd hn (place_inProgress _ _), by simpa using h.cipher, ?_, ?_, ?_⟩
  · intro f
    have hf := h.errand f
    have e0 : (s.place op).errands = s.locks.waiting.map (fun c => (c.1, .claim)) ++ (s.store.operations.filterMap RowOp.errand ++ [(e, st)])
        ++ s.cipher.requests.filterMap CipherRequest.errand := by
      unfold State.errands; rw [ho]; simp [h1]
    rw [e0, busyEngine_of_engines (s := s) (by simp)]
    by_cases hfe : e = f
    · subst hfe
      simp only [if_true] at hf
      obtain ⟨p1, p2, p3⟩ := filter_parts hf
      rw [List.filter_append, List.filter_append, List.filter_append, p1, p2, p3, hb]; simp [hs]
    · have hne : (some e = some f) = False := by simp [hfe]
      rw [if_neg (by simp [hfe])] at hf
      rw [List.filter_append, List.filter_append, List.filter_append]
      unfold State.errands at hf; rw [List.filter_append, List.filter_append] at hf
      simp [hfe] at hf ⊢; exact hf
  · intro f b' _ hb'
    rw [busyEngine_of_engines (s := s) (by simp)] at hb'
    by_cases hfe : e = f
    · subst hfe; rw [hb] at hb'; cases hb'; exact hl
    · exact h.busy f b' (by simp [hfe]) hb'
  · unfold State.answersAwaited; rw [ho, isWorking_of (s := s) (by simp)]
    have := h.link; unfold State.answersAwaited at this
    simp [List.countP_append, h2]; simpa using this

theorem ops_current {s : State} {op} (hc : s.current = some op) : s.store.operations = op :: s.store.waiting := by
  unfold State.current at hc; simp [Store.operations, hc]

theorem finish_work_plain {k x} {s : State} {op} (h : State.WorkExcept k x s) (hc : s.current = some op)
    (h1 : op.errand = none) (h2 : op.answers = false) :
    State.WorkExcept k x s.finishOp := by
  have ho := finish_ops s
  have hs := ops_current hc
  refine ⟨finish_idle s, by simpa using h.cipher, ?_, ?_, ?_⟩
  · intro e
    have : s.finishOp.errands = s.errands := by
      unfold State.errands; rw [ho, hs]; simp [h1]
    rw [this, busyEngine_of_engines (s := s) (by simp)]; exact h.errand e
  · intro e b hx; rw [busyEngine_of_engines (s := s) (by simp)]; exact h.busy e b hx
  · unfold State.answersAwaited; rw [ho, isWorking_of (s := s) (by simp)]
    have := h.link; unfold State.answersAwaited at this; rw [hs] at this
    simp [h2] at this ⊢; exact this

theorem finish_work_link {k x} {s : State} {op} (h : State.WorkExcept k x s) (hc : s.current = some op)
    (h1 : op.errand = none) (h2 : op.answers = true) :
    State.WorkExcept (k + 1) x s.finishOp := by
  have ho := finish_ops s
  have hs := ops_current hc
  refine ⟨finish_idle s, by simpa using h.cipher, ?_, ?_, ?_⟩
  · intro e
    have : s.finishOp.errands = s.errands := by
      unfold State.errands; rw [ho, hs]; simp [h1]
    rw [this, busyEngine_of_engines (s := s) (by simp)]; exact h.errand e
  · intro e b hx; rw [busyEngine_of_engines (s := s) (by simp)]; exact h.busy e b hx
  · unfold State.answersAwaited; rw [ho, isWorking_of (s := s) (by simp)]
    have := h.link; unfold State.answersAwaited at this; rw [hs] at this
    simp [h2] at this ⊢; omega

/-- what an engine's operation in progress says of the engine -/
theorem current_engine {k} {s : State} {op e st} (h : State.WorkExcept k none s) (hc : s.current = some op)
    (h1 : op.errand = some (e, st)) :
    ∃ b, s.busyEngine e = some b ∧ b.stage = st ∧ b.Lawful ∧
      (s.locks.waiting.map (fun c => (c.1, Stage.claim))).filter (fun p => p.1 = e) = []
      ∧ (s.store.waiting.filterMap RowOp.errand).filter (fun p => p.1 = e) = []
      ∧ (s.cipher.requests.filterMap CipherRequest.errand).filter (fun p => p.1 = e) = [] := by
  have hf := h.errand e
  unfold State.errands at hf; rw [ops_current hc] at hf
  simp only [List.filterMap_cons, h1, List.filter_append, List.filter_cons, decide_true, if_true] at hf
  rw [if_neg (by simp)] at hf
  cases hb : s.busyEngine e with
  | none => rw [hb] at hf; simp at hf
  | some b =>
    rw [hb] at hf
    simp only [Option.map_some, Option.toList_some] at hf
    have hlen := congrArg List.length hf
    simp only [List.length_append, List.length_cons, List.length_nil] at hlen
    have a1 : (List.filter (fun p => decide (p.1 = e)) (s.locks.waiting.map (fun c => (c.1, Stage.claim)))) = [] := List.length_eq_zero_iff.1 (by omega)
    have a2 : (List.filter (fun p => decide (p.1 = e)) (s.store.waiting.filterMap RowOp.errand)) = [] := List.length_eq_zero_iff.1 (by omega)
    have a3 : (List.filter (fun p => decide (p.1 = e)) (s.cipher.requests.filterMap CipherRequest.errand)) = [] := List.length_eq_zero_iff.1 (by omega)
    rw [a1, a2, a3] at hf; simp at hf
    exact ⟨b, rfl, hf.symm, h.busy e b (by simp) hb, a1, a2, a3⟩

theorem finish_work_engine {k e st} {s : State} {op} (h : State.WorkExcept k none s) (hc : s.current = some op)
    (h1 : op.errand = some (e, st)) (h2 : op.answers = false) :
    State.WorkExcept k (some e) s.finishOp := by
  have ho := finish_ops s
  have hs := ops_current hc
  obtain ⟨b, hb, _, _, p1, p2, p3⟩ := current_engine h hc h1
  refine ⟨finish_idle s, by simpa using h.cipher, ?_, ?_, ?_⟩
  · intro f
    have e0 : s.finishOp.errands = s.locks.waiting.map (fun c => (c.1, .claim)) ++ (s.store.waiting.filterMap RowOp.errand)
        ++ s.cipher.requests.filterMap CipherRequest.errand := by
      unfold State.errands; rw [ho]; simp
    rw [e0, busyEngine_of_engines (s := s) (by simp)]
    by_cases hfe : e = f
    · subst hfe; rw [List.filter_append, List.filter_append, p1, p2, p3]; simp
    · have hf := h.errand f
      unfold State.errands at hf; rw [hs] at hf
      simp only [List.filterMap_cons, h1, List.filter_append, List.filter_cons, decide_eq_true_eq, hfe, if_false] at hf
      rw [if_neg (by simp [hfe]), List.filter_append, List.filter_append]
      rw [if_neg (by simp)] at hf; exact hf
  · intro f b' hx; rw [busyEngine_of_engines (s := s) (by simp)]; exact h.busy f b' (by simp)
  · unfold State.answersAwaited; rw [ho, isWorking_of (s := s) (by simp)]
    have := h.link; unfold State.answersAwaited at this; rw [hs] at this
    simp [h2] at this ⊢; exact this

/-! cipher -/

theorem arrive_one (c : Cipher) (r) : c.arrive [r] = c.request r := by
  unfold Cipher.arrive tieOrder
  cases h : r.engine with
  | none => simp [h]
  | some e => cases e <;> cases hl : c.lastServed <;> simp [h, otherEngine]

theorem request_requests (c : Cipher) (r) (h : c.busy = none → c.waiting = []) : (c.request r).requests = c.requests
    ++ [r] ∧ ((c.request r).busy = none → (c.request r).waiting = []) := by
  unfold Cipher.request Cipher.requests Cipher.grant; split
  · rename_i hn; simp [hn, h hn]
  · rename_i hn; simp [hn]

theorem complete_requests (c : Cipher) : c.complete.requests = c.waiting ∧
    (c.complete.busy = none → c.complete.waiting = []) := by
  unfold Cipher.complete Cipher.requests Cipher.grant; split
  · rename_i hn; simp [hn]
  · rename_i hn; simp [hn]

theorem requests_busy {c : Cipher} {r} (h : c.busy = some r) : c.requests = r :: c.waiting := by
  simp [Cipher.requests, h]

theorem request_work_link {k x} {s : State} {r} (h : State.WorkExcept (k + 1) x s) (h1 : r.engine = none) :
    State.WorkExcept k x (s.requestCipher r) := by
  have e1 : (s.requestCipher r).cipher = s.cipher.request r := arrive_one _ _
  obtain ⟨a, b⟩ := request_requests s.cipher r h.cipher
  refine ⟨h.store, by rw [e1]; exact b, ?_, h.busy, ?_⟩
  · intro e
    have : (s.requestCipher r).errands = s.errands := by
      unfold State.errands; rw [e1, a]; simp [CipherRequest.errand, h1]
    rw [this]; exact h.errand e
  · have := h.link; unfold State.answersAwaited at this ⊢
    rw [e1, a]; simp [List.countP_append, h1]
    have e3 : (s.requestCipher r).isWorking = s.isWorking := rfl
    rw [e3]; omega

theorem request_work_engine {k e} {s : State} {r} {b : BusyEngine} (h : State.WorkExcept k (some e) s)
    (h1 : r.engine = some e)
    (hb : s.busyEngine e = some b) (hs : b.stage = .tokens) (hl : b.Lawful) : State.WorkExcept k none
    (s.requestCipher r) := by
  have e1 : (s.requestCipher r).cipher = s.cipher.request r := arrive_one _ _
  obtain ⟨a, b1⟩ := request_requests s.cipher r h.cipher
  refine ⟨h.store, by rw [e1]; exact b1, ?_, ?_, ?_⟩
  · intro f
    have hf := h.errand f
    have e0 : (s.requestCipher r).errands = s.errands ++ [(e, .tokens)] := by
      unfold State.errands; rw [e1, a]; simp [CipherRequest.errand, h1]
    rw [e0, busyEngine_of_engines (s := s) (t := s.requestCipher r) rfl, List.filter_append, hf]
    by_cases hfe : e = f
    · subst hfe; simp [hb, hs]
    · simp [hfe]
  · intro f b' _ hb'
    rw [busyEngine_of_engines (s := s) (t := s.requestCipher r) rfl] at hb'
    by_cases hfe : e = f
    · subst hfe; rw [hb] at hb'; cases hb'; exact hl
    · exact h.busy f b' (by simp [hfe]) hb'
  · have := h.link; unfold State.answersAwaited at this ⊢
    rw [e1, a]; simp [List.countP_append, h1]
    have e3 : (s.requestCipher r).isWorking = s.isWorking := rfl
    rw [e3]; omega

theorem complete_work_link {k x} {s : State} {r} (h : State.WorkExcept k x s) (hr : s.cipher.busy = some r)
    (h1 : r.engine = none) : State.WorkExcept (k + 1) x s.completeCipher := by
  obtain ⟨a, b⟩ := complete_requests s.cipher
  have e1 : s.completeCipher.cipher = s.cipher.complete := rfl
  refine ⟨h.store, b, ?_, h.busy, ?_⟩
  · intro e
    have : s.completeCipher.errands = s.errands := by
      unfold State.errands; rw [e1, a, requests_busy hr]; simp [CipherRequest.errand, h1]
    rw [this]; exact h.errand e
  · have := h.link; unfold State.answersAwaited at this ⊢
    rw [e1, a]; rw [requests_busy hr] at this; simp [h1] at this ⊢
    have e3 : s.completeCipher.isWorking = s.isWorking := rfl
    rw [e3]; omega

theorem cipher_engine {k} {s : State} {r e} (h : State.WorkExcept k none s) (hr : s.cipher.busy = some r)
    (h1 : r.engine = some e) :
    ∃ b, s.busyEngine e = some b ∧ b.stage = .tokens ∧ b.Lawful ∧
      (s.locks.waiting.map (fun c => (c.1, Stage.claim))).filter (fun p => p.1 = e) = []
      ∧ (s.store.operations.filterMap RowOp.errand).filter (fun p => p.1 = e) = []
      ∧ (s.cipher.waiting.filterMap CipherRequest.errand).filter (fun p => p.1 = e) = [] := by
  have hf := h.errand e
  have he : CipherRequest.errand r = some (e, .tokens) := by simp [CipherRequest.errand, h1]
  unfold State.errands at hf; rw [requests_busy hr] at hf
  simp only [List.filterMap_cons, he, List.filter_append, List.filter_cons, decide_true, if_true] at hf
  rw [if_neg (by simp)] at hf
  cases hb : s.busyEngine e with
  | none => rw [hb] at hf; simp at hf
  | some b =>
    rw [hb] at hf
    simp only [Option.map_some, Option.toList_some] at hf
    have hlen := congrArg List.length hf
    simp only [List.length_append, List.length_cons, List.length_nil] at hlen
    have a1 : (List.filter (fun p => decide (p.1 = e)) (s.locks.waiting.map (fun c => (c.1, Stage.claim)))) = [] := List.length_eq_zero_iff.1 (by omega)
    have a2 : (List.filter (fun p => decide (p.1 = e)) (s.store.operations.filterMap RowOp.errand)) = [] := List.length_eq_zero_iff.1 (by omega)
    have a3 : (List.filter (fun p => decide (p.1 = e)) (s.cipher.waiting.filterMap CipherRequest.errand)) = [] := List.length_eq_zero_iff.1 (by omega)
    rw [a1, a2, a3] at hf; simp at hf
    exact ⟨b, rfl, hf.symm, h.busy e b (by simp) hb, a1, a2, a3⟩

theorem complete_work_engine {k e} {s : State} {r} (h : State.WorkExcept k none s) (hr : s.cipher.busy = some r)
    (h1 : r.engine = some e) : State.WorkExcept k (some e) s.completeCipher := by
  obtain ⟨a, b1⟩ := complete_requests s.cipher
  obtain ⟨b, hb, _, _, p1, p2, p3⟩ := cipher_engine h hr h1
  have he : CipherRequest.errand r = some (e, .tokens) := by simp [CipherRequest.errand, h1]
  have e1 : s.completeCipher.cipher = s.cipher.complete := rfl
  refine ⟨h.store, b1, ?_, fun f b' hx => h.busy f b' (by simp), ?_⟩
  · intro f
    have e0 : s.completeCipher.errands = s.locks.waiting.map (fun c => (c.1, .claim)) ++ (s.store.operations.filterMap RowOp.errand)
        ++ s.cipher.waiting.filterMap CipherRequest.errand := by
      unfold State.errands; rw [e1, a]; simp
    rw [e0, busyEngine_of_engines (s := s) (t := s.completeCipher) rfl]
    by_cases hfe : e = f
    · subst hfe; rw [List.filter_append, List.filter_append, p1, p2, p3]; simp
    · have hf := h.errand f
      unfold State.errands at hf; rw [requests_busy hr] at hf
      simp only [List.filterMap_cons, he, List.filter_append, List.filter_cons, decide_eq_true_eq, hfe, if_false] at hf
      rw [if_neg (by simp [hfe]), List.filter_append, List.filter_append]
      rw [if_neg (by simp)] at hf; exact hf
  · have := h.link; unfold State.answersAwaited at this ⊢
    rw [e1, a]; rw [requests_busy hr] at this; simp [h1] at this ⊢
    have e3 : s.completeCipher.isWorking = s.isWorking := rfl
    rw [e3]; omega

/-! replies -/

theorem respond_work {x} {s : State} {c b} (h : State.WorkExcept 1 x s) : State.WorkExcept 0 x (s.respond c b) := by
  have hw : s.isWorking = true := by
    have := h.link; cases hq : s.isWorking with
    | true => rfl
    | false => rw [hq] at this; simp at this
  have ha : s.answersAwaited = 0 := by have := h.link; rw [hw] at this; simpa using this
  have hn : (s.respond c b).isWorking = false := by
    unfold State.isWorking at hw ⊢; unfold State.respond
    cases he : s.exchange <;> rw [he] at hw <;> first | rfl | cases hw
  refine ⟨by simpa using h.store, by simpa using h.cipher, ?_, ?_, ?_⟩
  · intro e
    have : (s.respond c b).errands = s.errands := by unfold State.errands; simp
    rw [this, busyEngine_of_engines (s := s) (by simp)]; exact h.errand e
  · intro e b hx; rw [busyEngine_of_engines (s := s) (by simp)]; exact h.busy e b hx
  · have : (s.respond c b).answersAwaited = s.answersAwaited := by unfold State.answersAwaited; simp
    rw [this, ha, hn]; rfl

theorem answer_work {x} {s : State} {c} (h : State.WorkExcept 1 x s) : State.WorkExcept 0 x (s.answer c) :=
  respond_work h

/-! engines -/

theorem setEngine_work {k e} {s : State} (y) (h : State.WorkExcept k (some e) s) : State.WorkExcept k (some e)
    (s.setEngine e y) := by
  refine ⟨h.store, h.cipher, ?_, ?_, h.link⟩
  · intro f
    have : (s.setEngine e y).errands = s.errands := rfl
    rw [this, h.errand f]
    by_cases hfe : e = f
    · simp [hfe]
    · rw [if_neg (by simp [hfe]), if_neg (by simp [hfe]), setEngine_busyEngine_other _ _ _ _ (fun q => hfe q.symm)]
  · intro f b hx hb
    rw [setEngine_busyEngine_other _ _ _ _ (fun q => hx (by rw [q]))] at hb
    exact h.busy f b hx hb

/-- an engine with nothing in hand rests -/
theorem rest_work {k e} {s : State} (h : State.WorkExcept k (some e) s) (hb : s.busyEngine e = none) :
    State.WorkExcept k none s := by
  refine ⟨h.store, h.cipher, ?_, ?_, h.link⟩
  · intro f; have := h.errand f
    by_cases hfe : e = f
    · subst hfe; rw [this]; simp [hb]
    · rw [this]; simp [hfe]
  · intro f b _ hb'
    by_cases hfe : e = f
    · subst hfe; rw [hb] at hb'; cases hb'
    · exact h.busy f b (by simp [hfe]) hb'

/-- an idle engine is taken up -/
theorem wake_work {k e} {s : State} (h : State.WorkExcept k none s) (hb : s.busyEngine e = none) : State.WorkExcept
    k (some e) s := by
  refine ⟨h.store, h.cipher, ?_, fun f b _ => h.busy f b (by simp), h.link⟩
  intro f; have := h.errand f
  by_cases hfe : e = f
  · subst hfe; rw [this]; simp [hb]
  · rw [this]; simp [hfe]

/-- the claim joins the list -/
theorem wait_work {k e m} {s : State} {b : BusyEngine} (h : State.WorkExcept k (some e) s)
    (hb : s.busyEngine e = some b) (hs : b.stage = .claim) (hl : b.Lawful) :
    State.WorkExcept k none { s with locks := { s.locks with waiting := s.locks.waiting ++ [(e, m)] } } := by
  refine ⟨h.store, h.cipher, ?_, ?_, h.link⟩
  · intro f
    have hf := h.errand f
    show List.filter _ ((s.locks.waiting ++ [(e, m)]).map (fun c => (c.1, Stage.claim)) ++ s.store.operations.filterMap RowOp.errand
        ++ s.cipher.requests.filterMap CipherRequest.errand) = _
    rw [busyEngine_of_engines (s := s) (t := { s with locks := { s.locks with waiting := s.locks.waiting ++ [(e, m)] } }) rfl]
    by_cases hfe : e = f
    · subst hfe
      simp only [if_true] at hf
      obtain ⟨p1, p2, p3⟩ := filter_parts hf
      rw [List.map_append, List.filter_append, List.filter_append, List.filter_append, p1, p2, p3, hb]; simp [hs]
    · rw [if_neg (by simp [hfe])] at hf
      unfold State.errands at hf; rw [List.filter_append, List.filter_append] at hf
      rw [List.map_append, List.filter_append, List.filter_append, List.filter_append]
      simp [hfe] at hf ⊢; exact hf
  · intro f b' _ hb'
    by_cases hfe : e = f
    · subst hfe; rw [busyEngine_of_engines (s := s) (t := { s with locks := { s.locks with waiting := s.locks.waiting ++ [(e, m)] } }) rfl, hb] at hb'; cases hb'; exact hl
    · exact h.busy f b' (by simp [hfe]) hb'

/-- a claim leaves the list -/
theorem unwait_work {k} {s : State} {c : EngineId × MeterNumber} (h : State.WorkExcept k none s)
    (hm : c ∈ s.locks.waiting) :
    State.WorkExcept k (some c.1) { s with locks := { s.locks with waiting := s.locks.waiting.erase c } } ∧ ∃ b,
    s.busyEngine c.1 = some b ∧ b.Lawful ∧ b.stage = .claim := by
  obtain ⟨l1, l2, hn, hl, he⟩ := List.exists_erase_eq hm
  have hf := h.errand c.1
  unfold State.errands at hf; rw [hl] at hf
  simp only [List.map_append, List.map_cons, List.filter_append, List.filter_cons, decide_true, if_true] at hf
  rw [if_neg (by simp)] at hf
  have hb : ∃ b, s.busyEngine c.1 = some b := by
    cases hb : s.busyEngine c.1 with
    | none => rw [hb] at hf; simp at hf
    | some b => exact ⟨b, rfl⟩
  obtain ⟨b, hb⟩ := hb
  rw [hb] at hf
  simp only [Option.map_some, Option.toList_some] at hf
  have hlen := congrArg List.length hf
  simp only [List.length_append, List.length_cons, List.length_nil] at hlen
  have a1 : (List.filter (fun p => decide (p.1 = c.1)) (l1.map (fun c => (c.1, Stage.claim)))) = [] := List.length_eq_zero_iff.1 (by omega)
  have a4 : (List.filter (fun p => decide (p.1 = c.1)) (l2.map (fun c => (c.1, Stage.claim)))) = [] := List.length_eq_zero_iff.1 (by omega)
  have a2 : (List.filter (fun p => decide (p.1 = c.1)) (s.store.operations.filterMap RowOp.errand)) = [] := List.length_eq_zero_iff.1 (by omega)
  have a3 : (List.filter (fun p => decide (p.1 = c.1)) (s.cipher.requests.filterMap CipherRequest.errand)) = [] := List.length_eq_zero_iff.1 (by omega)
  rw [a1, a2, a3, a4] at hf; simp at hf
  refine ⟨⟨h.store, h.cipher, ?_, fun f b' _ => h.busy f b' (by simp), h.link⟩, b, hb, h.busy _ b (by simp) hb, hf.symm⟩
  intro f
  show List.filter _ ((s.locks.waiting.erase c).map (fun c => (c.1, Stage.claim)) ++ s.store.operations.filterMap RowOp.errand
        ++ s.cipher.requests.filterMap CipherRequest.errand) = if some c.1 = some f then [] else ((s.busyEngine f).map fun b => (f, b.stage)).toList
  rw [he]
  by_cases hfe : c.1 = f
  · subst hfe; rw [List.map_append, List.filter_append, List.filter_append, List.filter_append, a1, a2, a3, a4]; simp
  · have hf := h.errand f
    unfold State.errands at hf; rw [hl] at hf
    rw [if_neg (by simp)] at hf
    rw [if_neg (by simp [hfe]), ← hf]
    simp [List.filter_append, hfe]

theorem endRequest_work {k e b} {s : State} (h : State.WorkExcept k (some e) s) : State.WorkExcept k none
    (s.endRequest e b) := by
  unfold State.endRequest
  refine rest_work (e := e) (setEngine_work _ (workExcept_same h rfl rfl rfl rfl rfl rfl)) (setEngine_resting_busyEngine _ _ _)

theorem grantClaim_work {k e m} {s : State} {b} (h : State.WorkExcept k (some e) s) (hb : s.busyEngine e = some b)
    (hs : b.stage = .claim) (hl : b.Lawful) : State.WorkExcept k none (s.grantClaim e m) := by
  unfold State.grantClaim; dsimp only; rw [hb]; dsimp only
  refine place_work_engine (setEngine_work (s := { s with locks := _ }) _ (workExcept_congr h rfl rfl rfl rfl rfl rfl rfl)) rfl rfl (setEngine_busyEngine _ _ _) rfl ?_
  obtain ⟨i, h1, h2, h3⟩ := hl
  rw [hs] at h3
  exact ⟨i, h1, h2, h3⟩

theorem claim_work {k e m} {s : State} {b} (h : State.WorkExcept k (some e) s) (hb : s.busyEngine e = some b)
    (hs : b.stage = .claim) (hl : b.Lawful) : State.WorkExcept k none (s.claim e m) := by
  unfold State.claim; split
  · exact grantClaim_work h hb hs hl
  · exact wait_work h hb hs hl

theorem startItem_work {k e b} {s : State} (h : State.WorkExcept k (some e) s) : State.WorkExcept k none
    (s.startItem e b) := by
  unfold State.startItem; split
  · rename_i i hi
    exact claim_work (setEngine_work _ h) (setEngine_busyEngine _ _ _) rfl ⟨i, hi, List.nodup_nil, rfl, rfl⟩
  · exact endRequest_work h

theorem endItem_work {k e b oc} {s : State} (h : State.WorkExcept k (some e) s) : State.WorkExcept k none
    (s.endItem e b oc) := by
  unfold State.endItem; dsimp only; repeat' split
  · exact endRequest_work h
  · exact endRequest_work h
  · exact startItem_work h

theorem refuseItem_work {k e b c} {s : State} (h : State.WorkExcept k (some e) s) : State.WorkExcept k none
    (s.refuseItem e b c) := by
  unfold State.refuseItem
  exact endItem_work (workExcept_congr h (by simp) (by simp) (by simp) (by simp) (by simp) (by simp) (isWorking_of (by simp)))

theorem continueTokens_work {k e} {b : BusyEngine} {s : State} {i} (h : State.WorkExcept k (some e) s)
    (hi : b.items[b.item]? = some i) (hr : b.work.row.isSome) (hm : b.work.record.isSome)
    (hd : b.work.slots.Nodup) (ht : b.work.reserved = i.tender) : State.WorkExcept k none (s.continueTokens e b) := by
  unfold State.continueTokens; rw [hi]
  obtain ⟨n, hn⟩ := Option.isSome_iff_exists.1 hr
  obtain ⟨r, hr'⟩ := Option.isSome_iff_exists.1 hm
  rw [hn, hr']
  cases hp : b.work.planned with
  | cons p ps =>
    dsimp only
    refine request_work_engine (setEngine_work _ h) rfl (setEngine_busyEngine _ _ _) rfl ⟨i, hi, hd, ?_⟩
    refine ⟨?_, hr, hm, ht⟩
    show b.work.planned ≠ []
    rw [hp]; simp
  | nil =>
    dsimp only
    exact place_work_engine (setEngine_work _ h) rfl rfl (setEngine_busyEngine _ _ _) rfl ⟨i, hi, hd, trivial⟩

theorem neededSlots_nodup {sl r l} (h : neededSlots sl r = some l) : l.Nodup := by
  unfold neededSlots at h; split at h
  · cases h; simp
  · split at h
    · split at h <;> cases h
      · simp
      · simp_all
    · cases h
  · cases h

theorem prepare_work {s : State} {w w' : WorkingValues} {r i} (h : s.prepare w r i = .ok w') (h0 : w.reserved = 0) :
    w'.row = w.row ∧ w'.record.isSome ∧ w'.slots.Nodup ∧ w'.reserved = i.tender := by
  unfold State.prepare State.preparePurchase State.prepareService at h
  repeat' split at h
  all_goals first
    | cases h; done
    | (cases h; refine ⟨rfl, rfl, neededSlots_nodup ‹_›, ?_⟩; first | rfl | exact h0)

theorem checkItem_work {k e n r i} {b : BusyEngine} {s : State} (h : State.WorkExcept k (some e) s)
    (hi : b.items[b.item]? = some i) (h0 : b.work.reserved = 0) : State.WorkExcept k none (s.checkItem e b i n r) :=
    by
  unfold State.checkItem State.passItem
  repeat' split
  · exact refuseItem_work h
  · exact refuseItem_work h
  · exact refuseItem_work h
  · rename_i w hw
    obtain ⟨w1, w2, w3, w4⟩ := prepare_work hw h0
    refine continueTokens_work (i := i) (workExcept_same h (by simp) (by simp) (by simp) (by simp) (by simp) (by simp)) hi ?_ w2 w3 w4
    show w.row.isSome = true
    rw [w1]; rfl

theorem minuteStep_work {k x} {s : State} (h : State.WorkExcept k x s) : State.WorkExcept k x (s.minuteStep) := by
  unfold State.minuteStep; dsimp only
  have h2 : State.WorkExcept k x (if ({ s with authority := s.authority.minute } : State).overdueDue = true then ({ s with authority := s.authority.minute } : State).setOverdue else { s with authority := s.authority.minute }) := by
    split <;> exact workExcept_same h rfl rfl rfl rfl rfl rfl
  split
  · exact place_work_plain h2 rfl rfl
  · exact h2

theorem settleMinute_work {k x} {s : State} (h : State.WorkExcept k x s) : State.WorkExcept k x (s.settleMinute) := by
  unfold State.settleMinute; split
  · exact minuteStep_work h
  · exact h

theorem settleTick_work {k x} {s : State} (h : State.WorkExcept k x s) : State.WorkExcept k x (s.settleTick) :=
  settleMinute_work (workExcept_same h rfl rfl rfl rfl rfl rfl)

theorem checkOverdue_work {k x} {s : State} (h : State.WorkExcept k x s) : State.WorkExcept k x (s.checkOverdue) := by
  unfold State.checkOverdue; split
  · exact place_work_plain (workExcept_same h rfl rfl rfl rfl rfl rfl) rfl rfl
  · exact h

theorem begin_work {x lane hd} {s : State} (h : State.WorkExcept 0 x s) (hi : s.isWorking = false) :
    State.WorkExcept 1 x (s.beginExchange lane hd) := by
  refine ⟨h.store, h.cipher, h.errand, h.busy, ?_⟩
  have := h.link; rw [hi] at this
  show s.answersAwaited + 1 = true.toNat
  simp at this ⊢; omega

theorem consultLocks_work {op} {s : State} (h : s.WorkOwed) (hn : s.locks.supervisor = none) :
    (s.consultLocks op).WorkDone := by
  unfold State.consultLocks; repeat' split
  · exact place_work_link h rfl rfl
  · exact answer_work h
  · refine ⟨h.store, h.cipher, h.errand, h.busy, ?_⟩
    have := h.link; unfold State.answersAwaited at this
    rw [hn] at this
    show s.store.operations.countP RowOp.answers + s.cipher.requests.countP (·.engine.isNone) + 1 + 0 = s.isWorking.toNat
    simp at this ⊢; omega
  · exact place_work_link h rfl rfl

theorem sup_none {k x} {s : State} (h : State.WorkExcept (k+1) x s) : s.locks.supervisor = none := by
  have := h.link; unfold State.answersAwaited at this
  cases hq : s.locks.supervisor with
  | none => rfl
  | some o => rw [hq] at this; have hb : s.isWorking.toNat ≤ 1 := Bool.toNat_le _; simp at this; omega

theorem discard_work {k x} {s : State} (h : State.WorkExcept k x s) : State.WorkExcept k x (s.discardFrame) := by
  refine workExcept_congr h (by simp) (by simp) (by simp) (by simp) (by simp) (by simp) ?_
  unfold State.discardFrame State.isWorking; cases hx : s.exchange <;> simp [hx]

theorem notWorking {s : State} (h : s.exchange = .idle) : s.isWorking = false := by unfold State.isWorking; rw [h]

theorem readMeter_same {k x} (s : State) (m d) (h : State.WorkExcept k x s) : State.WorkExcept k x
    (s.readMeter m d).1 ∧ (s.readMeter m d).1.current = s.current ∧ (s.readMeter m d).1.engines = s.engines := by
  have key : ∀ n, ∀ t : State, t = s.readRecordRow n d → State.WorkExcept k x t ∧ t.current = s.current ∧ t.engines = s.engines := by
    rintro n t rfl
    have e1 : (s.readRecordRow n d).store.inProgress = s.store.inProgress ∧ (s.readRecordRow n d).store.waiting = s.store.waiting := by
      unfold State.readRecordRow; split
      · unfold State.makeOrphan Store.listOrphan; dsimp only; repeat' split
        all_goals exact ⟨rfl, rfl⟩
      · unfold State.markDamaged; split <;> exact ⟨rfl, rfl⟩
      · exact ⟨rfl, rfl⟩
    refine ⟨workExcept_same h (by simp) (by simp) (by simp) e1.1 e1.2 (by simp), ?_, by simp⟩
    unfold State.current; rw [e1.1]
  unfold State.readMeter; repeat' split
  all_goals first | exact ⟨h, rfl, rfl⟩ | exact key _ _ rfl

theorem unlistOrphan_ops (t : Store) (n) : (t.unlistOrphan n).inProgress = t.inProgress ∧ (t.unlistOrphan n).waiting
    = t.waiting := by
  unfold Store.unlistOrphan; dsimp only; repeat' split
  all_goals exact ⟨rfl, rfl⟩

theorem commitRow_ops (t : Store) (n m) : (t.commitRow n m).inProgress = t.inProgress ∧ (t.commitRow n m).waiting =
    t.waiting := by
  unfold Store.commitRow; repeat' split
  all_goals first | exact ⟨rfl, rfl⟩ | exact unlistOrphan_ops _ _

theorem link_done {op} {t : State} (h : t.WorkDone) (hc : t.current = some op) (h1 : op.errand = none)
    (h2 : op.answers = true) : (t.finishOp).WorkOwed :=
  finish_work_link h hc h1 h2

theorem clearReserved_busy {s : State} {e b} (hb : s.busyEngine e = some b) : s.clearReserved e = s.setEngine e
    (.busy { b with work := { b.work with reserved := 0 } }) := by
  unfold State.clearReserved; rw [hb]

theorem listOrphan_ops (t : Store) (n) : (t.listOrphan n).inProgress = t.inProgress ∧ (t.listOrphan n).waiting =
    t.waiting := by
  unfold Store.listOrphan; repeat' split
  all_goals exact ⟨rfl, rfl⟩

@[simp] theorem makeOrphan_inP (s : State) (n) : (s.makeOrphan n).store.inProgress = s.store.inProgress :=
  (listOrphan_ops _ _).1

@[simp] theorem makeOrphan_wait (s : State) (n) : (s.makeOrphan n).store.waiting = s.store.waiting :=
  (listOrphan_ops _ _).2

@[simp] theorem markDamaged_inP (s : State) (n) : (s.markDamaged n).store.inProgress = s.store.inProgress := by
  unfold State.markDamaged; split <;> rfl

@[simp] theorem markDamaged_wait (s : State) (n) : (s.markDamaged n).store.waiting = s.store.waiting := by
  unfold State.markDamaged; split <;> rfl

@[simp] theorem readWords_inP (s : State) (n d) : (s.readWords n d).store.inProgress = s.store.inProgress := rfl

@[simp] theorem readWords_wait (s : State) (n d) : (s.readWords n d).store.waiting = s.store.waiting := rfl

structure SameOps (s t : State) : Prop where
  inProgress : t.store.inProgress = s.store.inProgress
  waiting : t.store.waiting = s.store.waiting
  engines : t.engines = s.engines
  locks : t.locks = s.locks
  cipher : t.cipher = s.cipher
  exchange : t.exchange = s.exchange
  office : t.office = s.office
  authority : t.authority = s.authority
  slots : t.slots = s.slots

theorem indexScanned_ops (s : State) (n m l) : SameOps s (s.indexScanned n m l) := by
  have h0 : SameOps s { s with store := (s.store.setCondition n .record).indexMeter m n } := ⟨rfl, rfl, rfl, rfl, rfl, rfl, rfl, rfl, rfl⟩
  unfold State.indexScanned; dsimp only; split
  · obtain ⟨a1,a2,a3,a4,a5,a6,a7,a8,a9⟩ := h0
    constructor <;> simp <;> assumption
  · exact h0

theorem SameOps.trans {s t u : State} (h : SameOps s t) (g : SameOps t u) : SameOps s u :=
  ⟨g.1.trans h.1, g.2.trans h.2, g.3.trans h.3, g.4.trans h.4, g.5.trans h.5, g.6.trans h.6, g.7.trans h.7, g.8.trans h.8, g.9.trans h.9⟩

theorem makeOrphan_same (s : State) (n) : SameOps s (s.makeOrphan n) := by constructor <;> simp

theorem markDamaged_same (s : State) (n) : SameOps s (s.markDamaged n) := by constructor <;> simp

theorem readWords_same (s : State) (n d) : SameOps s (s.readWords n d) :=
  ⟨rfl, rfl, rfl, rfl, rfl, rfl, rfl, rfl, rfl⟩

theorem scanFindings_ops (s : State) (n d) : SameOps s (s.scanFindings n d) := by
  have r := readWords_same s n d
  unfold State.scanFindings; dsimp only; split
  · exact r.trans (makeOrphan_same _ _)
  · split
    · exact ⟨rfl, rfl, rfl, rfl, rfl, rfl, rfl, rfl, rfl⟩
    · unfold State.scanRecord; dsimp only; split
      · exact r.trans (indexScanned_ops _ _ _ _)
      · generalize laterRowWins _ _ = wins
        cases wins
        · exact r.trans (makeOrphan_same _ _)
        · exact (r.trans (makeOrphan_same _ _)).trans (indexScanned_ops _ _ _ _)

theorem scrubFindings_ops (s : State) (n d) : SameOps s (s.scrubFindings n d) := by
  unfold State.scrubFindings State.readRecordRow
  repeat' split
  all_goals first
    | exact (readWords_same s n d).trans (makeOrphan_same _ _)
    | exact (readWords_same s n d).trans (markDamaged_same _ _)
    | exact readWords_same s n d

theorem readOrFault_same {k x} {s : State} {id d b} (h : State.WorkExcept k x s) : State.WorkExcept k x
    (s.readOrFault id d b) ∧ (s.readOrFault id d b).current = s.current := by
  unfold State.readOrFault; split
  all_goals exact ⟨workExcept_same h rfl rfl rfl rfl rfl rfl, rfl⟩

theorem noteAuthority_work {k x} {a s : State} (h : State.WorkExcept k x s) : State.WorkExcept k x
    (State.noteAuthority a s) := by
  unfold State.noteAuthority; split
  · exact workExcept_same h rfl rfl rfl rfl rfl rfl
  · exact h

/-- No outcome of a request breaks the law of the work in hand: it is answered, or waits for its one answer. -/
theorem answered_work {s t : State} (h : s.WorkOwed) (g : s.Answered t) : t.WorkDone := by
  cases g with
  | replied u c b hu => exact respond_work (workExcept_same h (by rw [hu]) (by rw [hu]) (by rw [hu]) (by rw [hu]) (by rw [hu]) (by rw [hu]))
  | placed u op hu ha =>
    exact place_work_link (workExcept_same h (by rw [hu]) (by rw [hu]) (by rw [hu]) (by rw [hu]) (by rw [hu]) (by rw [hu]))
      (answers_plain ha).2 ha
  | consulted op => exact consultLocks_work h (sup_none h)
  | enciphered r hr => exact request_work_link h hr
  | dropped i g => exact place_work_link (workExcept_same h rfl rfl rfl rfl rfl rfl) rfl rfl
  | enabled c b hd =>
    have hb : s.busyEngine .b = none := by simp [State.busyEngine, Pair.get, hd]
    exact respond_work (rest_work (setEngine_work _ (wake_work h hb)) (setEngine_resting_busyEngine _ _ _))

/-- No request command breaks the law of the work in hand. -/
theorem requested_work {s t : State} (h : s.WorkDone) (g : s.Requested t) : t.WorkDone := by
  cases g with
  | held => exact h
  | overlapped => exact discard_work h
  | refused lane hd u c b hi hu =>
    exact respond_work (workExcept_same (begin_work (settleTick_work h) (notWorking (by simp; exact hi))) (by rw [hu])
      (by rw [hu]) (by rw [hu]) (by rw [hu]) (by rw [hu]) (by rw [hu]))
  | taken lane hd t hi ho ht => exact answered_work (begin_work (settleTick_work h) (notWorking (by simp; exact hi))) ht

end Sys2Proof.Machine
end

