-- ==== Sys2Proof/Laws/Units.lean ====
section
/-! SUPPORT. The law of the authority unit, the key slots and their rows (`State.UnitsLive`; R65, R66, R127, R128, R132, R158): what each
operation on the units, the engines and the store does to it. -/

namespace Sys2Proof.Machine

open Sys2Proof

/-- What each engine holds: its key slots and its reserved amount. -/
abbrev Holds := EngineId → List SlotId × Nat

/-- What each engine of a state holds. -/
def State.holds (s : State) : Holds :=
  fun e => (s.slotsHeld e, s.amountHeld e)

/-- The law of an operation, for engines that hold `p`. -/
abbrev RowOp.Ok (p : Holds) (s : State) (op : RowOp) : Prop :=
  op.Lawful (fun e => (p e).2) s

/-- The law of the units inside a command: the store still holds `ops`, and the engines hold `p`. -/
structure UnitsHoldFor (ops : List RowOp) (p : Holds) (s : State) : Prop where
  office : s.office ≠ .starting
  within : s.authority.spent + s.authority.reserved ≤ s.authority.granted
  held : s.authority.reserved = (p .a).2 + (p .b).2
  agree : s.memory.office.content.granted = s.authority.granted ∧ s.memory.office.content.spent = s.authority.spent
    ∧ s.memory.office.content.commitCounts = s.authority.commitCounts
  dues : ∀ e, s.memory.due e ≤ (p e).2
  rows : s.memory.keysDistinct
  slots : ∀ i : SlotId, s.slots[i].matches (s.memory.keys[i]).content
  counts : ∀ i : SlotId, s.slots[i].inUse = (p .a).1.count i + (p .b).1.count i
  loaded : ∀ e, ∀ i ∈ (p e).1, (s.slots[i].generation).isSome
  changing : ∀ i : SlotId, s.slots[i].state = .changing → ∃ op ∈ ops, op.keySlot = some i
  ops : ∀ op ∈ ops, op.Ok p s

/-- The law of the units for engines that hold `p`. -/
def UnitsHold (p : Holds) (s : State) : Prop :=
  UnitsHoldFor s.store.operations p s ∧ s.Formed

/-- The law of the units for what the engines hold. -/
abbrev State.UnitsDone (s : State) : Prop :=
  UnitsHold s.holds s

/-- Between commands the units hold what the engines say. -/
theorem unitsLive_iff (s : State) : s.UnitsLive ↔ s.UnitsDone :=
  ⟨fun h => ⟨⟨h.1, h.2, h.3, h.4, h.5, h.6, h.7, h.8, h.9, h.10, h.11⟩, h.12⟩,
    fun ⟨h, g⟩ => ⟨h.1, h.2, h.3, h.4, h.5, h.6, h.7, h.8, h.9, h.10, h.11, g⟩⟩

/-- the fields that the law reads -/
structure SameUnits (s t : State) : Prop where
  office : t.office = s.office ∨ t.office = .fault ∨ t.office = .ready
  granted : t.authority.granted = s.authority.granted
  spent : t.authority.spent = s.authority.spent
  reserved : t.authority.reserved = s.authority.reserved
  counts : t.authority.commitCounts = s.authority.commitCounts
  mgranted : t.memory.office.content.granted = s.memory.office.content.granted
  mspent : t.memory.office.content.spent = s.memory.office.content.spent
  mcounts : t.memory.office.content.commitCounts = s.memory.office.content.commitCounts
  commits : ∀ e, (t.memory.commits.get e).content = (s.memory.commits.get e).content
  keys : ∀ i : SlotId, (t.memory.keys[i]).content = (s.memory.keys[i]).content
  slots : t.slots = s.slots

theorem SameUnits.refl (s : State) : SameUnits s s :=
  ⟨.inl rfl, rfl, rfl, rfl, rfl, rfl, rfl, rfl, fun _ => rfl, fun _ => rfl, rfl⟩

/-- the units and memory as they were -/
theorem sameUnits_of {s t : State} (h1 : t.office = s.office) (h2 : t.authority = s.authority)
    (h3 : t.memory = s.memory) (h4 : t.slots = s.slots) : SameUnits s t :=
  ⟨.inl h1, by rw [h2], by rw [h2], by rw [h2], by rw [h2], by rw [h3], by rw [h3], by rw [h3], fun _ => by rw [h3], fun _ => by rw [h3], h4⟩

theorem SameUnits.trans {s t u : State} (h : SameUnits s t) (g : SameUnits t u) : SameUnits s u := by
  refine ⟨?_, g.2.trans h.2, g.3.trans h.3, g.4.trans h.4, g.5.trans h.5, g.6.trans h.6, g.7.trans h.7, g.8.trans h.8, fun e => (g.9 e).trans (h.9 e), fun e => (g.10 e).trans (h.10 e), g.11.trans h.11⟩
  rcases g.1 with g | g | g
  · rw [g]; exact h.1
  · exact .inr (.inl g)
  · exact .inr (.inr g)

theorem due_congr {s t : State} (h : SameUnits s t) (e) : t.memory.due e = s.memory.due e := by
  unfold RecordMemory.due; rw [h.commits e, h.mcounts]

theorem Ok_congr {p} {s t : State} {op : RowOp} (h : SameUnits s t) (g : op.Ok p s) : op.Ok p t := by
  unfold RowOp.Ok RowOp.Lawful at g ⊢
  split <;> simp only at g ⊢
  all_goals (try rw [h.counts])
  all_goals (try rw [h.commits])
  all_goals (try rw [h.slots])
  all_goals exact g

theorem unitsHoldFor_congr {ops ops' p} {s t : State} (h : UnitsHoldFor ops p s) (g : SameUnits s t)
    (h1 : ∀ op ∈ ops', op ∈ ops ∨ op.Ok p t)
    (h2 : ∀ op ∈ ops, op.keySlot ≠ none → op ∈ ops') : UnitsHoldFor ops' p t := by
  refine ⟨?_, ?_, ?_, ?_, ?_, ?_, ?_, ?_, ?_, ?_, ?_⟩
  · rcases g.office with q | q | q
    · rw [q]; exact h.office
    · rw [q]; simp
    · rw [q]; simp
  · rw [g.spent, g.reserved, g.granted]; exact h.within
  · rw [g.reserved]; exact h.held
  · rw [g.mgranted, g.mspent, g.mcounts, g.spent, g.counts, g.granted]; exact h.agree
  · intro e; rw [due_congr g]; exact h.dues e
  · intro i j x y; rw [g.keys, g.keys]; exact h.rows i j x y
  · intro i; rw [g.slots, g.keys]; exact h.slots i
  · intro i; rw [g.slots]; exact h.counts i
  · intro e i; rw [g.slots]; exact h.loaded e i
  · intro i; rw [g.slots]; intro hi; obtain ⟨op, ho, hk⟩ := h.changing i hi
    exact ⟨op, h2 op ho (by rw [hk]; simp), hk⟩
  · intro op ho
    rcases h1 op ho with q | q
    · exact Ok_congr g (h.ops op q)
    · exact q

theorem Formed_congr {s t : State} (h : s.Formed) (g : SameUnits s t) (h1 : t.store.inProgress = s.store.inProgress)
    : t.Formed := by
  intro o w ho hw; rw [h1] at ho
  obtain ⟨row, r1, r2, r3, r4⟩ := h o w ho hw
  refine ⟨row, r1, ?_, ?_, ?_⟩
  · rw [r2]; unfold OfficeWrite.form State.officeImage OfficeRow.spend; cases w <;> simp [g.granted]
  · rw [r3]; unfold OfficeWrite.form State.officeImage OfficeRow.spend; cases w <;> simp [g.spent]
  · rw [r4]; unfold OfficeWrite.form State.officeImage OfficeRow.spend; cases w <;> simp [g.counts]

theorem takeOp_Formed (s : State) (op) : (s.takeOp op).Formed := by
  intro o w ho hw
  have hi : (s.takeOp op).officeImage.granted = s.officeImage.granted ∧ (s.takeOp op).officeImage.spent = s.officeImage.spent ∧ (s.takeOp op).officeImage.commitCounts = s.officeImage.commitCounts := by
    unfold State.officeImage; simp
  have hf : ∀ r : OfficeRow, r.granted = s.officeImage.granted → r.spent = s.officeImage.spent → r.commitCounts = s.officeImage.commitCounts →
     (w.form r).granted = (w.form s.officeImage).granted ∧ (w.form r).spent = (w.form s.officeImage).spent ∧ (w.form r).commitCounts = (w.form s.officeImage).commitCounts := by
    intro r h1 h2 h3; unfold OfficeWrite.form OfficeRow.spend; cases w <;> simp [h1, h2, h3]
  obtain ⟨f1, f2, f3⟩ := hf _ hi.1 hi.2.1 hi.2.2
  rw [f1, f2, f3]
  unfold State.takeOp at ho; dsimp only at ho
  split at ho
  · cases ho; simp only [RowOp.office.injEq] at hw; subst hw; exact ⟨_, rfl, rfl, rfl, rfl⟩
  · split at ho <;> (cases ho; cases hw)
  · split at ho <;> (cases ho; cases hw)
  · rename_i h1 _ _; cases ho; exact absurd hw (h1 w)

theorem place_units {p} {s : State} {op} (h : UnitsHold p s) (w : s.store.inProgress = none → s.store.waiting = [])
    (ho : op.Ok p s) : UnitsHold p (s.place op) := by
  have hu : SameUnits s (s.place op) := sameUnits_of (by simp) (by simp) (by simp) (by simp)
  refine ⟨unitsHoldFor_congr h.1 hu ?_ ?_, ?_⟩
  · rw [place_ops op w]; intro q hq; simp at hq; rcases hq with hq | rfl
    · exact .inl hq
    · exact .inr (Ok_congr hu ho)
  · rw [place_ops op w]; intro q hq _; simp [hq]
  · unfold State.place; split
    · exact takeOp_Formed _ _
    · exact Formed_congr h.2 (sameUnits_of rfl rfl rfl rfl) rfl

/-- the operation in progress is over -/
theorem finish_units {p} {s : State} (h : UnitsHoldFor s.store.waiting p s) : UnitsHold p s.finishOp := by
  have hu : SameUnits s s.finishOp := sameUnits_of (by simp) (by simp) (by simp) (by simp)
  refine ⟨unitsHoldFor_congr h hu ?_ ?_, ?_⟩
  · rw [finish_ops]; exact fun q hq => .inl hq
  · rw [finish_ops]; exact fun q hq _ => hq
  · unfold State.finishOp; split
    · intro o w ho; cases ho
    · exact takeOp_Formed _ _

theorem unitsHoldFor_waiting {p} {s t : State} {op} (h : UnitsHold p s) (hc : s.current = some op)
    (hk : op.keySlot = none) (g : SameUnits s t) (hw : t.store.waiting = s.store.waiting) :
    UnitsHoldFor t.store.waiting p t := by
  have ho := ops_current hc
  refine unitsHoldFor_congr h.1 g ?_ ?_
  · rw [ho, hw]; exact fun q hq => .inl (by simp [hq])
  · rw [ho, hw]; intro q hq hn; simp at hq; rcases hq with rfl | hq
    · exact absurd hk hn
    · exact hq

/-- an operation that is no key operation is over, the units as they were -/
theorem finish_units_same {p} {s t : State} {op} (h : UnitsHold p s) (hc : s.current = some op)
    (hk : op.keySlot = none) (g : SameUnits s t) (hw : t.store.waiting = s.store.waiting) :
    UnitsHold p t.finishOp := finish_units (unitsHoldFor_waiting h hc hk g hw)

theorem unitsHold_congr {p} {s t : State} (h : UnitsHold p s) (g : SameUnits s t)
    (h1 : t.store.inProgress = s.store.inProgress) (h2 : t.store.waiting = s.store.waiting) : UnitsHold p t := by
  have ho : t.store.operations = s.store.operations := by unfold Store.operations; rw [h1, h2]
  refine ⟨unitsHoldFor_congr h.1 g (by rw [ho]; exact fun q hq => .inl hq) (by rw [ho]; exact fun q hq _ => hq), Formed_congr h.2 g h1⟩

theorem unitsHold_same {p} {s t : State} (h : UnitsHold p s) (h1 : t.office = s.office)
    (h2 : t.authority = s.authority) (h3 : t.memory = s.memory) (h4 : t.slots = s.slots)
   (h5 : t.store.inProgress = s.store.inProgress) (h6 : t.store.waiting = s.store.waiting) : UnitsHold p t :=
  unitsHold_congr h (sameUnits_of h1 h2 h3 h4) h5 h6

/-! what the current operation says -/

theorem current_Ok {p} {s : State} {op} (h : UnitsHold p s) (hc : s.current = some op) : op.Ok p s :=
  h.1.ops op (by rw [ops_current hc]; simp)

/-! engine-free ops are untouched by what engine e holds -/

theorem Ok_other {p q : Holds} {s : State} {e} {op : RowOp} (hp : ∀ f, f ≠ e → q f = p f)
    (he : ∀ st, op.errand ≠ some (e, st)) (g : op.Ok p s) : op.Ok q s := by
  unfold RowOp.Ok RowOp.Lawful at g ⊢
  split <;> simp only at g ⊢
  · rename_i f m; rw [hp f (by rintro rfl; exact he _ rfl)]; exact g
  · rename_i f m; rw [hp f (by rintro rfl; exact he _ rfl)]; exact g
  · rename_i f m; rw [hp f (by rintro rfl; exact he _ rfl)]; exact g
  · rename_i f; rw [hp f (by rintro rfl; exact he _ rfl)]; exact g
  · exact g
  · exact g
  · exact g

def noErrand (e : EngineId) (ops : List RowOp) : Prop := ∀ op ∈ ops, ∀ st, op.errand ≠ some (e, st)

theorem noErrand_of {e : EngineId} {ops : List RowOp}
    (h : (ops.filterMap RowOp.errand).filter (fun p => p.1 = e) = []) : noErrand e ops := by
  intro op ho st he
  have : (e, st) ∈ (ops.filterMap RowOp.errand).filter (fun p => p.1 = e) := by
    rw [List.mem_filter]; exact ⟨List.mem_filterMap.2 ⟨op, ho, he⟩, by simp⟩
  rw [h] at this; cases this

theorem noErrand_mid {k e} {s : State} (h : State.WorkExcept k (some e) s) : noErrand e s.store.operations := by
  have := h.errand e; simp only [if_true] at this
  exact noErrand_of (filter_parts this).2.1

def Holds.put (p : Holds) (e : EngineId) (v : List SlotId × Nat) : Holds := fun f => if f = e then v else p f

@[simp] theorem put_same (p : Holds) (e v) : p.put e v e = v := by simp [Holds.put]

theorem put_other (p : Holds) (e v f) (h : f ≠ e) : p.put e v f = p f := by simp [Holds.put, h]

theorem put_put (p : Holds) (e v w) : (p.put e v).put e w = p.put e w := by funext f; unfold Holds.put; split <;> rfl

theorem put_self (p : Holds) (e) : p.put e (p e) = p := by funext f; unfold Holds.put; split <;> simp_all

theorem holds_engines {s t : State} (h : t.engines = s.engines) : t.holds = s.holds := by
  funext e; unfold State.holds State.slotsHeld State.amountHeld; rw [busyEngine_of_engines h]

theorem holds_setEngine (s : State) (e) (b : BusyEngine) : (s.setEngine e (.busy b)).holds = s.holds.put e
    (b.work.slots, b.work.reserved) := by
  funext f
  unfold State.holds State.slotsHeld State.amountHeld
  by_cases h : f = e
  · subst h; rw [setEngine_busyEngine]; simp
  · rw [setEngine_busyEngine_other _ _ _ _ h, put_other _ _ _ _ h]

theorem holds_rest (s : State) (e p) : (s.setEngine e (restingEngine e p)).holds = s.holds.put e ([], 0) := by
  funext f
  unfold State.holds State.slotsHeld State.amountHeld
  by_cases h : f = e
  · subst h; rw [setEngine_resting_busyEngine]; simp
  · rw [setEngine_busyEngine_other _ _ _ _ h, put_other _ _ _ _ h]

theorem holds_busy {s : State} {e b} (h : s.busyEngine e = some b) : s.holds e = (b.work.slots, b.work.reserved) := by
  unfold State.holds State.slotsHeld State.amountHeld; rw [h]

theorem holds_none {s : State} {e} (h : s.busyEngine e = none) : s.holds e = ([], 0) := by
  unfold State.holds State.slotsHeld State.amountHeld; rw [h]

/-- memory's ledger, from the live law -/
theorem ledger {ops p} {s : State} (h : UnitsHoldFor ops p s) : s.memory.office.content.spent + s.memory.due .a +
    s.memory.due .b ≤ s.memory.office.content.granted := by
  have h1 := h.dues .a; have h2 := h.dues .b; have h3 := h.within; have h4 := h.held; have h5 := h.agree
  rw [h5.1, h5.2.1]; omega

/-- the same engines and units -/
theorem same_unitsDone {p} {s t : State} (h : UnitsHold p s) (hp : t.holds = p) (h1 : t.office = s.office)
    (h2 : t.authority = s.authority) (h3 : t.memory = s.memory) (h4 : t.slots = s.slots)
   (h5 : t.store.inProgress = s.store.inProgress) (h6 : t.store.waiting = s.store.waiting) : t.UnitsDone := by
  unfold State.UnitsDone; rw [hp]; exact unitsHold_same h h1 h2 h3 h4 h5 h6

theorem endRequest_unitsDone {e b} {s : State} (h : UnitsHold (s.holds.put e ([], 0)) s) :
    (s.endRequest e b).UnitsDone :=
  same_unitsDone h (by unfold State.endRequest; rw [holds_rest]; rfl) rfl rfl rfl rfl rfl rfl

theorem place_unitsDone {op} {t : State} {p} (h : UnitsHold p t) (hp : t.holds = p)
    (w : t.store.inProgress = none → t.store.waiting = []) (ho : op.Ok p t) : (t.place op).UnitsDone := by
  unfold State.UnitsDone; rw [holds_engines (s := t) (by simp), hp]; exact place_units h w ho

theorem grantClaim_unitsDone {e m} {s : State} {b} (h : UnitsHold (s.holds.put e ([], 0)) s)
    (w : s.store.inProgress = none → s.store.waiting = []) (hb : s.busyEngine e = some b) (h1 : b.work.slots = [])
    (h2 : b.work.reserved = 0) : (s.grantClaim e m).UnitsDone := by
  unfold State.grantClaim; dsimp only; rw [hb]; dsimp only
  refine place_unitsDone (p := s.holds.put e ([], 0)) (unitsHold_same h rfl rfl rfl rfl rfl rfl) ?_ w rfl
  rw [holds_setEngine]; dsimp only; rw [h1, h2]; rfl

theorem claim_unitsDone {e m} {s : State} {b} (h : UnitsHold (s.holds.put e ([], 0)) s)
    (w : s.store.inProgress = none → s.store.waiting = []) (hb : s.busyEngine e = some b) (h1 : b.work.slots = [])
    (h2 : b.work.reserved = 0) : (s.claim e m).UnitsDone := by
  unfold State.claim; split
  · exact grantClaim_unitsDone h w hb h1 h2
  · refine same_unitsDone h ((holds_engines (s := s) rfl).trans ?_) rfl rfl rfl rfl rfl rfl
    have := holds_busy hb; rw [h1, h2] at this; rw [← this, put_self]

theorem startItem_unitsDone {e b} {s : State} (h : UnitsHold (s.holds.put e ([], 0)) s)
    (w : s.store.inProgress = none → s.store.waiting = []) : (s.startItem e b).UnitsDone := by
  unfold State.startItem; split
  · refine claim_unitsDone ?_ w (setEngine_busyEngine _ _ _) rfl rfl
    rw [holds_setEngine, put_put]; exact unitsHold_same h rfl rfl rfl rfl rfl rfl
  · exact endRequest_unitsDone h

theorem endItem_unitsDone {e b oc} {s : State} (h : UnitsHold (s.holds.put e ([], 0)) s)
    (w : s.store.inProgress = none → s.store.waiting = []) : (s.endItem e b oc).UnitsDone := by
  unfold State.endItem; dsimp only; repeat' split
  · exact endRequest_unitsDone h
  · exact endRequest_unitsDone h
  · exact startItem_unitsDone h w

theorem refuseItem_unitsDone {e b c} {s : State} (h : UnitsHold (s.holds.put e ([], 0)) s)
    (w : s.store.inProgress = none → s.store.waiting = []) : (s.refuseItem e b c).UnitsDone := by
  unfold State.refuseItem
  refine endItem_unitsDone ?_ (by simpa using w)
  rw [holds_engines (s := s) (by simp)]
  exact unitsHold_same h (by simp) (by simp) (by simp) (by simp) (by simp) (by simp)

theorem continueTokens_unitsDone {e} {b : BusyEngine} {s : State} {i}
    (h : UnitsHold (s.holds.put e (b.work.slots, b.work.reserved)) s)
    (w : s.store.inProgress = none → s.store.waiting = []) (hi : b.items[b.item]? = some i)
    (hr : b.work.row.isSome) (hm : b.work.record.isSome) (ht : b.work.reserved = i.tender) :
    (s.continueTokens e b).UnitsDone := by
  unfold State.continueTokens; rw [hi]
  obtain ⟨n, hn⟩ := Option.isSome_iff_exists.1 hr
  obtain ⟨r, hr'⟩ := Option.isSome_iff_exists.1 hm
  rw [hn, hr']
  cases hp : b.work.planned with
  | cons p ps =>
    dsimp only
    exact same_unitsDone h ((holds_engines (s := s.setEngine e (.busy { b with stage := .tokens })) rfl).trans (holds_setEngine _ _ _)) rfl rfl rfl rfl rfl rfl
  | nil =>
    dsimp only
    refine place_unitsDone (p := s.holds.put e (b.work.slots, b.work.reserved)) (unitsHold_same h rfl rfl rfl rfl rfl rfl) (holds_setEngine _ _ _) w ?_
    refine ⟨?_, rfl⟩
    dsimp only; rw [put_same, ht]; rfl

/-! slots -/

theorem slotAt_setSlot (s : State) (i j : SlotId) (k) : (s.setSlot i k).slots[j] = if j = i then k else s.slots[j]
    := by
  unfold State.setSlot
  by_cases h : j = i
  · subst h; simp
  · have : i.val ≠ j.val := fun e => h (Fin.ext e.symm)
    simp [this, h]

theorem raiseSlots_slots (l : List SlotId) : ∀ (s : State) (i : SlotId), (s.raiseSlots l).slots[i] =
    { s.slots[i] with inUse := s.slots[i].inUse + l.count i } := by
  induction l with
  | nil => intro s i; rfl
  | cons a l ih =>
    intro s i
    have : s.raiseSlots (a :: l) = (s.setSlot a { s.slots[a] with inUse := s.slots[a].inUse + 1 }).raiseSlots l := rfl
    rw [this, ih]; dsimp only; rw [slotAt_setSlot]
    by_cases h : i = a
    · subst h; simp; omega
    · have : a ≠ i := fun e => h e.symm
      rw [if_neg h]; simp [this]

theorem lowerSlots_slots (l : List SlotId) : ∀ (s : State) (i : SlotId), (s.lowerSlots l).slots[i] =
    { s.slots[i] with inUse := s.slots[i].inUse - l.count i } := by
  induction l with
  | nil => intro s i; rfl
  | cons a l ih =>
    intro s i
    have : s.lowerSlots (a :: l) = (s.setSlot a { s.slots[a] with inUse := s.slots[a].inUse - 1 }).lowerSlots l := rfl
    rw [this, ih]; dsimp only; rw [slotAt_setSlot]
    by_cases h : i = a
    · subst h; simp; omega
    · have : a ≠ i := fun e => h e.symm
      rw [if_neg h]; simp [this]

/-- a key operation reads a slot's state and generation alone -/
theorem Ok_inUse {p} {s t : State} {op : RowOp} (ha : t.authority.commitCounts = s.authority.commitCounts)
    (hm : t.memory = s.memory)
    (hs : ∀ i : SlotId, t.slots[i].state = s.slots[i].state) (g : op.Ok p s) : op.Ok p t := by
  have hg : ∀ i : SlotId, t.slots[i].generation = s.slots[i].generation := by intro i; unfold KeySlot.generation; rw [hs]
  unfold RowOp.Ok RowOp.Lawful at g ⊢
  split <;> simp only at g ⊢
  · rw [ha]; exact g
  · rw [ha, hm]; exact g
  · rw [ha, hm]; exact g
  · exact g
  · rw [hs]; refine ⟨g.1, fun j hj => ?_⟩; rw [hg]; exact g.2 j hj
  · rw [hs]; exact g
  · exact g

theorem held_change (p q : Holds) (f : List SlotId × Nat → Nat) (e : EngineId) (v) (h : q = p.put e v) :
   (f (p .a) + f (p .b) + f v = f (q .a) + f (q .b) + f (p e)) := by
  subst h; cases e
  · rw [put_same, put_other _ _ _ _ (by decide)]; omega
  · rw [put_same, put_other _ _ _ _ (by decide)]; omega

/-- what engine e holds changes, with the counts and the reserved amount -/
theorem unitsHoldFor_hold {ops e v} {p : Holds} {s t : State} (h : UnitsHoldFor ops p s) (hn : noErrand e ops)
    (h1 : t.office = s.office)
    (h2 : t.authority.granted = s.authority.granted ∧ t.authority.spent = s.authority.spent ∧ t.authority.commitCounts = s.authority.commitCounts)
    (hr : t.authority.reserved + (p e).2 = s.authority.reserved + v.2)
    (hw : t.authority.spent + t.authority.reserved ≤ t.authority.granted) (h3 : t.memory = s.memory)
    (hd : s.memory.due e ≤ v.2) (hs : ∀ i : SlotId, t.slots[i].state = s.slots[i].state)
    (hc : ∀ i : SlotId, t.slots[i].inUse + (p e).1.count i = s.slots[i].inUse + v.1.count i)
    (hl : ∀ i ∈ v.1, (s.slots[i].generation).isSome) : UnitsHoldFor ops (p.put e v) t := by
  have hg : ∀ i : SlotId, t.slots[i].generation = s.slots[i].generation := by intro i; unfold KeySlot.generation; rw [hs]
  refine ⟨by rw [h1]; exact h.office, hw, ?_, ?_, ?_, by rw [h3]; exact h.rows, ?_, ?_, ?_, ?_, ?_⟩
  · have a := held_change p _ (·.2) e v rfl; have b := h.held; beta_reduce at a; omega
  · rw [h3, h2.1, h2.2.1, h2.2.2]; exact h.agree
  · intro f; rw [h3]; by_cases q : f = e
    · subst q; rw [put_same]; exact hd
    · rw [put_other _ _ _ _ q]; exact h.dues f
  · intro i; have := h.slots i; unfold KeySlot.matches at this ⊢; rw [hs, h3]; exact this
  · intro i; have a := held_change p _ (fun x => x.1.count i) e v rfl; have b := h.counts i; have c := hc i; beta_reduce at a; omega
  · intro f i; rw [hg]; by_cases q : f = e
    · subst q; rw [put_same]; exact hl i
    · rw [put_other _ _ _ _ q]; exact h.loaded f i
  · intro i; rw [hs]; exact h.changing i
  · intro op ho
    exact Ok_inUse (s := s) h2.2.2 h3 hs (Ok_other (p := p) (fun f hf => put_other _ _ _ _ hf) (hn op ho) (h.ops op ho))

theorem findSlot_gen {sl : Vector KeySlot 4} {g i} (h : findSlot sl g = some i) : sl[i].generation = some g := by
  unfold findSlot at h; simpa using List.find?_some h

theorem neededSlots_loaded {sl r l} (h : neededSlots sl r = some l) : ∀ i ∈ l, (sl[i].generation).isSome := by
  unfold neededSlots at h; split at h
  · rename_i i h1 h2; cases h; intro j hj; simp at hj; subst hj; rw [findSlot_gen h1]; rfl
  · rename_i i g h1 h2; split at h
    · rename_i j h3
      cases h; intro q hq; split at hq
      · simp at hq; subst hq; rw [findSlot_gen h1]; rfl
      · simp at hq; rcases hq with rfl | rfl
        · rw [findSlot_gen h1]; rfl
        · rw [findSlot_gen h3]; rfl
    · cases h
  · cases h

theorem prepare_units {s : State} {w w' : WorkingValues} {r i} (h : s.prepare w r i = .ok w') (h0 : w.reserved = 0)
    (hw : s.authority.spent + s.authority.reserved ≤ s.authority.granted) :
    (∀ i ∈ w'.slots, (s.slots[i].generation).isSome) ∧ s.authority.spent + (s.authority.reserved + w'.reserved) ≤
    s.authority.granted := by
  unfold State.prepare State.preparePurchase State.prepareService at h
  repeat' split at h
  all_goals first
    | cases h; done
    | (cases h; refine ⟨neededSlots_loaded ‹_›, ?_⟩; dsimp only; first | (rw [h0]; exact hw) | (rename_i hh; unfold Authority.available at hh; omega))

theorem checkItem_unitsDone {e n r i} {b : BusyEngine} {s : State} (h : s.UnitsDone)
    (w : State.WorkExcept 0 (some e) s) (hb : s.busyEngine e = some b) (hi : b.items[b.item]? = some i)
    (h0 : b.work.reserved = 0) (hs : b.work.slots = []) : (s.checkItem e b i n r).UnitsDone := by
  have hp : s.holds e = ([], 0) := by rw [holds_busy hb, h0, hs]
  have h' : UnitsHold (s.holds.put e ([], 0)) s := by rw [← hp, put_self]; exact h
  unfold State.checkItem
  repeat' split
  · exact refuseItem_unitsDone h' w.store
  · exact refuseItem_unitsDone h' w.store
  · exact refuseItem_unitsDone h' w.store
  · rename_i wv hw
    obtain ⟨w1, w2, w3, w4⟩ := prepare_work hw h0
    obtain ⟨u1, u2⟩ := prepare_units hw h0 h.1.within
    unfold State.passItem
    have hd : s.memory.due e ≤ 0 := by have := h.1.dues e; rw [hp] at this; exact this
    have ha : ((s.raiseSlots wv.slots).reserve wv.reserved).authority = { s.authority with reserved := s.authority.reserved + wv.reserved } := by
      unfold State.reserve State.noteAuthority; dsimp only; split <;> simp [State.raiseAuthorityLow]
    have hsl : ((s.raiseSlots wv.slots).reserve wv.reserved).slots = (s.raiseSlots wv.slots).slots := by simp
    have key : UnitsHold (s.holds.put e (wv.slots, wv.reserved)) ((s.raiseSlots wv.slots).reserve wv.reserved) := by
      have ho : ((s.raiseSlots wv.slots).reserve wv.reserved).store = s.store := by simp
      refine ⟨?_, ?_⟩
      · rw [ho]
        refine unitsHoldFor_hold h.1 (noErrand_mid w) (by simp) (by rw [ha]; exact ⟨rfl, rfl, rfl⟩) ?_ ?_ (by simp) (by dsimp only; omega) ?_ ?_ u1
        · rw [ha, hp]; dsimp only; omega
        · rw [ha]; dsimp only; omega
        · intro i; rw [hsl, raiseSlots_slots]
        · intro i; rw [hsl, raiseSlots_slots, hp]; simp
      · intro o w' ho' hw'; rw [ho] at ho'
        obtain ⟨row, r1, r2, r3, r4⟩ := h.2 o w' ho' hw'
        refine ⟨row, r1, ?_, ?_, ?_⟩
        · rw [r2]; unfold OfficeWrite.form State.officeImage OfficeRow.spend; cases w' <;> simp [ha]
        · rw [r3]; unfold OfficeWrite.form State.officeImage OfficeRow.spend; cases w' <;> simp [ha]
        · rw [r4]; unfold OfficeWrite.form State.officeImage OfficeRow.spend; cases w' <;> simp [ha]
    refine continueTokens_unitsDone (i := i) ?_ (by simpa using w.store) hi ?_ w2 w4
    · rw [holds_engines (s := s) (by simp)]; exact key
    · show wv.row.isSome = true
      rw [w1]; rfl

/-! the timers and frames -/

theorem minute_sameUnits (s : State) (a : Authority)
    (h : a.granted = s.authority.granted ∧ a.spent = s.authority.spent ∧ a.reserved = s.authority.reserved ∧ a.commitCounts = s.authority.commitCounts)
    (ev st wl) :
    SameUnits s { s with authority := a, events := ev, settings := st, lanes := wl } :=
  ⟨.inl rfl, h.1, h.2.1, h.2.2.1, h.2.2.2, rfl, rfl, rfl, fun _ => rfl, fun _ => rfl, rfl⟩

theorem plainOk {p} {s : State} {op : RowOp} (h1 : op.errand = none) (h2 : op.keySlot = none)
    (h3 : op.startupStep = none) : op.Ok p s := by
  unfold RowOp.Ok RowOp.Lawful; split <;> first | exact h3 | (cases h1 <;> cases h2)

theorem minuteStep_units {p} {s : State} (h : UnitsHold p s) (w : s.store.inProgress = none → s.store.waiting = [])
    : UnitsHold p s.minuteStep := by
  unfold State.minuteStep; dsimp only
  have h2 : UnitsHold p (if ({ s with authority := s.authority.minute } : State).overdueDue = true then ({ s with authority := s.authority.minute } : State).setOverdue else { s with authority := s.authority.minute }) := by
    split <;> exact unitsHold_congr h ⟨.inl rfl, rfl, rfl, rfl, rfl, rfl, rfl, rfl, fun _ => rfl, fun _ => rfl, rfl⟩ rfl rfl
  split
  · refine place_units h2 ?_ (plainOk rfl rfl rfl)
    split <;> exact w
  · exact h2

theorem settleMinute_units {p} {s : State} (h : UnitsHold p s)
    (w : s.store.inProgress = none → s.store.waiting = []) : UnitsHold p (s.settleMinute) := by
  unfold State.settleMinute; split
  · exact minuteStep_units h w
  · exact h

theorem settleTick_units {p} {s : State} (h : UnitsHold p s) (w : s.store.inProgress = none → s.store.waiting = [])
    : UnitsHold p (s.settleTick) :=
  settleMinute_units (s := s.settleLanes) (unitsHold_same h rfl rfl rfl rfl rfl rfl) w

theorem checkOverdue_units {p} {s : State} (h : UnitsHold p s)
    (w : s.store.inProgress = none → s.store.waiting = []) : UnitsHold p (s.checkOverdue) := by
  unfold State.checkOverdue; split
  · exact place_units (unitsHold_congr h ⟨.inl rfl, rfl, rfl, rfl, rfl, rfl, rfl, rfl, fun _ => rfl, fun _ => rfl, rfl⟩ rfl rfl) w (plainOk rfl rfl rfl)
  · exact h

theorem settleTick_engines' (s : State) : s.settleTick.engines = s.engines := by simp

theorem respond_unitsDone {p} {s : State} {c b} (h : UnitsHold p s) (hp : s.holds = p) : (s.respond c b).UnitsDone :=
  same_unitsDone h (by rw [holds_engines (s := s) (by simp), hp]) (by simp) (by simp) (by simp) (by simp) (by simp) (by simp)

theorem answer_unitsDone {p} {s : State} {c} (h : UnitsHold p s) (hp : s.holds = p) : (s.answer c).UnitsDone :=
  respond_unitsDone h hp

theorem consultLocks_unitsDone {op} {s : State} (h : s.UnitsDone)
    (w : s.store.inProgress = none → s.store.waiting = []) : (s.consultLocks op).UnitsDone := by
  unfold State.consultLocks; repeat' split
  · exact place_unitsDone h rfl w (plainOk rfl rfl rfl)
  · exact answer_unitsDone h rfl
  · exact same_unitsDone h rfl rfl rfl rfl rfl rfl rfl
  · exact place_unitsDone h rfl w (plainOk rfl rfl rfl)

/-- no key operation is in hand while a request's work is still to be placed -/
theorem noKey {k x} {s : State} (h : State.WorkExcept (k + 1) x s) : ∀ op ∈ s.store.operations, op.keySlot = none :=
    by
  intro op ho
  have h1 := h.link; unfold State.answersAwaited at h1
  have h2 : s.store.operations.countP RowOp.answers = 0 := by have hb : s.isWorking.toNat ≤ 1 := Bool.toNat_le _; omega
  rw [List.countP_eq_zero] at h2
  have := h2 op ho
  unfold RowOp.keySlot; split
  · exact absurd rfl this
  · exact absurd rfl this
  · rfl

/-- a slot of no use starts to change -/
theorem changing_units {p} {s t : State} {i : SlotId} {op : RowOp} (h : UnitsHold p s)
    (hk : ∀ op ∈ s.store.operations, op.keySlot = none) (w : s.store.inProgress = none → s.store.waiting = [])
    (hu : s.slots[i].inUse = 0) (ht : t = s.setSlot i { s.slots[i] with state := .changing })
    (ho : op.keySlot = some i)
    (hg : ∀ c, op = .loadKey i c → ∀ j : SlotId, j ≠ i → s.slots[j].generation ≠ some c.generation) : UnitsHold p (t.place op) := by
  subst ht
  have hs : ∀ j : SlotId, (s.setSlot i { s.slots[i] with state := .changing }).slots[j] = if j = i then { s.slots[i] with state := .changing } else s.slots[j] := fun j => slotAt_setSlot _ _ _ _
  have hops := place_ops (s := s.setSlot i { s.slots[i] with state := .changing }) op w
  have hcz := h.1.counts i; rw [hu] at hcz
  have notin : ∀ e, i ∉ (p e).1 := by
    intro e hm; have := List.count_pos_iff.2 hm; cases e <;> omega
  have hsl : ((s.setSlot i { s.slots[i] with state := .changing }).place op).slots = (s.setSlot i { s.slots[i] with state := .changing }).slots := by simp
  have hok : op.Ok p ((s.setSlot i { s.slots[i] with state := .changing }).place op) := by
    have hi : ((s.setSlot i { s.slots[i] with state := .changing }).place op).slots[i].state = .changing := by rw [hsl, hs]; simp
    unfold RowOp.keySlot at ho
    split at ho
    · cases ho; refine ⟨hi, fun j hj => ?_⟩; rw [hsl, hs, if_neg hj]; exact hg _ rfl j hj
    · cases ho; exact hi
    · cases ho
  refine ⟨⟨?_, ?_, ?_, ?_, ?_, ?_, ?_, ?_, ?_, ?_, ?_⟩, ?_⟩
  · simpa using h.1.office
  · simpa using h.1.within
  · simpa using h.1.held
  · simpa using h.1.agree
  · simpa using h.1.dues
  · simpa using h.1.rows
  · intro j; rw [hsl, hs]
    have hm := h.1.slots j
    split
    · trivial
    · simpa using hm
  · intro j; rw [hsl, hs]; split
    · rename_i q; subst q; exact h.1.counts j
    · exact h.1.counts j
  · intro e j hj; rw [hsl, hs]; split
    · rename_i q; subst q; exact absurd hj (notin e)
    · exact h.1.loaded e j hj
  · intro j; rw [hsl, hs, hops]; split
    · rename_i q; subst q; intro _; exact ⟨op, by simp, ho⟩
    · intro q; obtain ⟨o, h1, h2⟩ := h.1.changing j q; exact ⟨o, by simp; exact .inl h1, h2⟩
  · rw [hops]; intro o hq
    rw [List.mem_append] at hq
    rcases hq with hq | hq
    · have g := h.1.ops o hq; have nk := hk o hq
      unfold RowOp.Ok RowOp.Lawful at g ⊢
      split <;> simp only at g ⊢
      · simpa using g
      · simpa using g
      · simpa using g
      · exact g
      · cases nk
      · cases nk
      · exact g
    · simp at hq; subst hq; exact hok
  · unfold State.place; split
    · exact takeOp_Formed _ _
    · intro o w' ho' hw'
      exact h.2 o w' ho' hw'

theorem finish_unitsDone {p} {s t : State} {op} (h : UnitsHold p s) (hc : s.current = some op)
    (hk : op.keySlot = none) (g : SameUnits s t) (hw : t.store.waiting = s.store.waiting) (hp : t.holds = p) :
    t.finishOp.UnitsDone := by
  unfold State.UnitsDone; rw [holds_engines (s := t) (by simp), hp]; exact finish_units_same h hc hk g hw

theorem readMeter_sameUnits (s : State) (m d) : SameUnits s (s.readMeter m d).1 ∧ (s.readMeter m d).1.store.waiting
    = s.store.waiting ∧ (s.readMeter m d).1.store.inProgress = s.store.inProgress ∧ (s.readMeter m d).1.engines =
    s.engines := by
  have key : ∀ n, ∀ t : State, t = s.readRecordRow n d → SameUnits s t ∧ t.store.waiting = s.store.waiting ∧ t.store.inProgress = s.store.inProgress ∧ t.engines = s.engines := by
    rintro n t rfl
    have hm : (s.readRecordRow n d).memory = (s.readWords n d).memory := by
      unfold State.readRecordRow; split <;> simp
    have hM : (s.readRecordRow n d).memory.office = s.memory.office ∧ (s.readRecordRow n d).memory.commits = s.memory.commits ∧ (s.readRecordRow n d).memory.keys = s.memory.keys := by
      rw [hm]; exact ⟨rfl, rfl, rfl⟩
    refine ⟨⟨.inl (by simp), by simp, by simp, by simp, by simp, by rw [hM.1], by rw [hM.1], by rw [hM.1], fun _ => by rw [hM.2.1], fun _ => by rw [hM.2.2], by simp⟩, ?_, ?_, by simp⟩
    all_goals (unfold State.readRecordRow; split <;> simp)
  unfold State.readMeter; repeat' split
  all_goals first | exact ⟨SameUnits.refl s, rfl, rfl, rfl⟩ | exact key _ _ rfl

theorem writeRecord_sameUnits (s : State) (n r) : SameUnits s (s.writeRecord n r) :=
  ⟨.inl rfl, rfl, rfl, rfl, rfl, rfl, rfl, rfl, fun _ => rfl, fun _ => rfl, rfl⟩

/-- the formed row of an office write in progress -/
theorem formed_row {s : State} {w} (h : s.Formed) (hc : s.current = some (.office w)) : s.formedRow.granted =
    (w.form s.officeImage).granted ∧ s.formedRow.spent = (w.form s.officeImage).spent
    ∧ s.formedRow.commitCounts = (w.form s.officeImage).commitCounts := by
  unfold State.current at hc
  cases hp : s.store.inProgress with
  | none => rw [hp] at hc; cases hc
  | some o =>
    rw [hp] at hc; simp at hc
    obtain ⟨row, r1, r2⟩ := h o w hp hc
    unfold State.formedRow; rw [hp]; dsimp only; rw [r1]; exact r2

/-- an office write that changes granted alone -/
theorem officeDone_unitsHoldFor {s t : State} {w} (h : s.UnitsDone) (hc : s.current = some (.office w))
    (h1 : t.office = s.office) (h2 : t.memory = s.memory.writeOffice s.formedRow) (h3 : t.slots = s.slots)
    (hg : t.authority.granted = (w.form s.officeImage).granted ∧ s.authority.granted ≤ t.authority.granted)
    (hs : t.authority.spent = s.authority.spent) (hr : t.authority.reserved = s.authority.reserved)
    (hcc : t.authority.commitCounts = s.authority.commitCounts)
    (hw : (w.form s.officeImage).spent = s.authority.spent ∧ (w.form s.officeImage).commitCounts = s.authority.commitCounts)
    (hwt : t.store.waiting = s.store.waiting) :
    UnitsHoldFor t.store.waiting s.holds t := by
  have ho := ops_current hc
  obtain ⟨f1, f2, f3⟩ := formed_row h.2 hc
  have hmo : t.memory.office.content = s.formedRow := by rw [h2]; rfl
  have hd : ∀ e, t.memory.due e = s.memory.due e := by
    intro e; unfold RecordMemory.due; rw [hmo, f3, hw.2, h2]
    rw [h.1.agree.2.2]; rfl
  refine ⟨by rw [h1]; exact h.1.office, ?_, by rw [hr]; exact h.1.held, ?_, ?_, ?_, ?_, ?_, ?_, ?_, ?_⟩
  · rw [hs, hr]; exact h.1.within.trans hg.2
  · rw [hmo, f1, f2, f3, hg.1, hs, hcc]; exact ⟨rfl, hw.1, hw.2⟩
  · intro e; rw [hd]; exact h.1.dues e
  · rw [h2]; exact h.1.rows
  · intro i; rw [h3, h2]; exact h.1.slots i
  · intro i; rw [h3]; exact h.1.counts i
  · intro e i; rw [h3]; exact h.1.loaded e i
  · intro i; rw [h3, hwt]; intro hi
    obtain ⟨op, h4, h5⟩ := h.1.changing i hi
    rw [ho] at h4; simp at h4; rcases h4 with rfl | h4
    · cases h5
    · exact ⟨op, h4, h5⟩
  · intro op hop; rw [hwt] at hop
    have g := h.1.ops op (by rw [ho]; simp [hop])
    unfold RowOp.Ok RowOp.Lawful at g ⊢
    split <;> simp only at g ⊢
    · rw [hcc]; exact g
    · rw [hcc, h2]; exact g
    · rw [hcc, h2]; exact g
    · exact g
    · rw [h3]; exact g
    · rw [h3]; exact g
    · exact g

theorem officeDone_unitsDone {s t : State} {w} (h : s.UnitsDone) (hc : s.current = some (.office w))
    (h1 : t.office = s.office) (h2 : t.memory = s.memory.writeOffice s.formedRow) (h3 : t.slots = s.slots)
    (hg : t.authority.granted = (w.form s.officeImage).granted ∧ s.authority.granted ≤ t.authority.granted)
    (hs : t.authority.spent = s.authority.spent) (hr : t.authority.reserved = s.authority.reserved)
    (hcc : t.authority.commitCounts = s.authority.commitCounts)
    (hw : (w.form s.officeImage).spent = s.authority.spent ∧ (w.form s.officeImage).commitCounts = s.authority.commitCounts)
    (hwt : t.store.waiting = s.store.waiting) (he : t.engines = s.engines) : t.finishOp.UnitsDone := by
  unfold State.UnitsDone
  rw [holds_engines (s := s) (by simp; exact he)]
  exact finish_units (officeDone_unitsHoldFor h hc h1 h2 h3 hg hs hr hcc hw hwt)

/-- a commit's own write: commit row or unit, engine e's parts alone -/
theorem commit_unitsHoldFor {s t : State} {e op v} (h : s.UnitsDone) (hc : s.current = some op)
    (hk : op.keySlot = none) (hne : noErrand e s.store.waiting)
    (h1 : t.office = s.office) (h3 : t.slots = s.slots) (hwt : t.store.waiting = s.store.waiting)
    (hw : t.authority.spent + t.authority.reserved ≤ t.authority.granted) (hv : v.1 = (s.holds e).1)
    (hr : t.authority.reserved + (s.holds e).2 = s.authority.reserved + v.2)
    (ha : t.memory.office.content.granted = t.authority.granted ∧ t.memory.office.content.spent = t.authority.spent ∧ t.memory.office.content.commitCounts = t.authority.commitCounts)
    (hcf : ∀ f, f ≠ e → t.authority.commitCounts.get f = s.authority.commitCounts.get f)
    (hmf : ∀ f, f ≠ e → (t.memory.commits.get f).content = (s.memory.commits.get f).content)
    (hkeys : t.memory.keys = s.memory.keys) (hd : t.memory.due e ≤ v.2) : UnitsHoldFor t.store.waiting
    (s.holds.put e v) t := by
  have ho := ops_current hc
  refine ⟨by rw [h1]; exact h.1.office, hw, ?_, ha, ?_, ?_, ?_, ?_, ?_, ?_, ?_⟩
  · have a := held_change s.holds _ (·.2) e v rfl; have b := h.1.held; beta_reduce at a; omega
  · intro f; by_cases q : f = e
    · subst q; rw [put_same]; exact hd
    · rw [put_other _ _ _ _ q]
      have : t.memory.due f = s.memory.due f := by
        unfold RecordMemory.due; rw [hmf f q, ha.2.2, hcf f q, h.1.agree.2.2]
      rw [this]; exact h.1.dues f
  · unfold RecordMemory.keysDistinct; rw [hkeys]; exact h.1.rows
  · intro i; rw [h3, hkeys]; exact h.1.slots i
  · intro i; rw [h3]
    have a := held_change s.holds _ (fun x => x.1.count i) e v rfl; have b := h.1.counts i; beta_reduce at a; rw [hv] at a; omega
  · intro f i; rw [h3]; by_cases q : f = e
    · subst q; rw [put_same, hv]; exact h.1.loaded f i
    · rw [put_other _ _ _ _ q]; exact h.1.loaded f i
  · intro i; rw [h3, hwt]; intro hi
    obtain ⟨o, h4, h5⟩ := h.1.changing i hi
    rw [ho] at h4; simp at h4; rcases h4 with rfl | h4
    · rw [hk] at h5; cases h5
    · exact ⟨o, h4, h5⟩
  · intro o hop; rw [hwt] at hop
    have g := h.1.ops o (by rw [ho]; simp [hop])
    have ne := hne o hop
    unfold RowOp.Ok RowOp.Lawful at g ⊢
    split <;> simp only at g ⊢
    · rename_i f m
      have q : f ≠ e := by rintro rfl; exact ne _ rfl
      rw [put_other _ _ _ _ q, hcf f q]; exact g
    · rename_i f m
      have q : f ≠ e := by rintro rfl; exact ne _ rfl
      rw [put_other _ _ _ _ q, hcf f q, hmf f q]; exact g
    · rename_i f m
      have q : f ≠ e := by rintro rfl; exact ne _ rfl
      rw [put_other _ _ _ _ q, hcf f q, hmf f q]; exact g
    · rename_i f
      have q : f ≠ e := by rintro rfl; exact ne _ rfl
      rw [put_other _ _ _ _ q]; exact g
    · rw [h3]; exact g
    · rw [h3]; exact g
    · exact g

theorem get_writeCommit (m : RecordMemory) (e c) : ((m.writeCommit e c).commits.get e).content = c := by
  unfold RecordMemory.writeCommit; simp

theorem get_writeCommit_other (m : RecordMemory) (e f c) (h : f ≠ e) : ((m.writeCommit e c).commits.get f).content =
    (m.commits.get f).content := by
  unfold RecordMemory.writeCommit; simp [h]

theorem ne_succ (c : BitVec 32) : c + 1 ≠ c := by bv_omega

/-- a slot's key write is done -/
theorem keyDone_unitsDone {s t : State} {i : SlotId} {op : RowOp} {k : KeySlot} {c : Option KeyContent}
    (h : s.UnitsDone) (w : s.WorkDone) (hc : s.current = some op) (hk : op.keySlot = some i)
    (ha : op.answers = true)
    (ht : t = { s with memory := s.memory.writeKey i c }.setSlot i k) (hu : k.inUse = s.slots[i].inUse)
    (hm : k.matches c) (hnc : k.state ≠ .changing)
    (hd : ∀ x, c = some x → ∀ j : SlotId, j ≠ i → s.slots[j].generation ≠ some x.generation) : t.finishOp.UnitsDone := by
  have ho := ops_current hc
  have hst : s.slots[i].state = .changing := by
    have g := current_Ok h hc
    unfold RowOp.keySlot at hk; split at hk
    · cases hk; exact g.1
    · cases hk; exact g
    · cases hk
  -- no other key operation
  have hno : ∀ o ∈ s.store.waiting, o.keySlot = none := by
    intro o hmem
    have h1 := w.link; unfold State.answersAwaited at h1; rw [ho] at h1
    have hb : s.isWorking.toNat ≤ 1 := Bool.toNat_le _
    rw [List.countP_cons_of_pos ha] at h1
    have h2 : s.store.waiting.countP RowOp.answers = 0 := by omega
    rw [List.countP_eq_zero] at h2
    have := h2 o hmem
    unfold RowOp.keySlot; split
    · exact absurd rfl this
    · exact absurd rfl this
    · rfl
  have hother : ∀ j : SlotId, j ≠ i → s.slots[j].state ≠ .changing := by
    intro j hj hs
    obtain ⟨o, h1, h2⟩ := h.1.changing j hs
    rw [ho] at h1; simp at h1; rcases h1 with rfl | h1
    · rw [hk] at h2; cases h2; exact hj rfl
    · rw [hno o h1] at h2; cases h2
  have hs : ∀ j : SlotId, t.slots[j] = if j = i then k else s.slots[j] := by intro j; subst ht; exact slotAt_setSlot { s with memory := s.memory.writeKey i c } i j k
  have hkeys : ∀ j : SlotId, (t.memory.keys[j]).content = if j = i then c else (s.memory.keys[j]).content := by
    intro j; subst ht
    show ((s.memory.keys.set i ⟨c, {}⟩)[j]).content = _
    by_cases q : j = i
    · subst q; simp
    · have : i.val ≠ j.val := fun e => q (Fin.ext e.symm)
      simp [this, q]
  have hmo : t.memory.office = s.memory.office ∧ t.memory.commits = s.memory.commits := by subst ht; exact ⟨rfl, rfl⟩
  have hau : t.authority = s.authority := by subst ht; rfl
  have hwt : t.store = s.store := by subst ht; rfl
  have hof : t.office = s.office := by subst ht; rfl
  have hin : ∀ e, i ∉ (s.holds e).1 := by
    intro e hmem
    have := h.1.loaded e i hmem
    unfold KeySlot.generation at this; rw [hst] at this; cases this
  -- the content of another slot's row
  have hrow : ∀ j : SlotId, j ≠ i → ∀ x, (s.memory.keys[j]).content = some x → s.slots[j].generation = some x.generation := by
    intro j hj x hx
    have g := h.1.slots j
    unfold KeySlot.matches at g; unfold KeySlot.generation
    split at g
    · rw [hx] at g; cases g
    · rename_i heq; rw [hx] at g; cases g; rw [heq]
    · rename_i heq; exact absurd heq (hother j hj)
  unfold State.UnitsDone
  rw [holds_engines (s := s) (by subst ht; simp)]
  refine finish_units ⟨by rw [hof]; exact h.1.office, by rw [hau]; exact h.1.within, by rw [hau]; exact h.1.held, by rw [hmo.1, hau]; exact h.1.agree, ?_, ?_, ?_, ?_, ?_, ?_, ?_⟩
  · intro e
    have : t.memory.due e = s.memory.due e := by unfold RecordMemory.due; rw [hmo.1, hmo.2]
    rw [this]; exact h.1.dues e
  · intro a b x y hx hy hg
    rw [hkeys] at hx hy
    split at hx <;> split at hy
    · subst_vars; rfl
    · rename_i q1 q2; subst q1; exact absurd (hg ▸ hrow b q2 y hy) (hd x hx b q2)
    · rename_i q1 q2; subst q2; exact absurd (hg ▸ hrow a q1 x hx) (hd y hy a q1)
    · exact h.1.rows a b x y hx hy hg
  · intro j; rw [hs, hkeys]; split
    · exact hm
    · exact h.1.slots j
  · intro j; rw [hs]; split
    · rename_i q; subst q; rw [hu]; exact h.1.counts j
    · exact h.1.counts j
  · intro e j hj; rw [hs]; split
    · rename_i q; subst q; exact absurd hj (hin e)
    · exact h.1.loaded e j hj
  · intro j; rw [hs]; split
    · intro q; exact absurd q hnc
    · rename_i q; intro hh; exact absurd hh (hother j q)
  · rw [hwt]; intro o hmem
    have g := h.1.ops o (by rw [ho]; simp [hmem])
    have nk := hno o hmem
    unfold RowOp.Ok RowOp.Lawful at g ⊢
    split <;> simp only at g ⊢
    · rw [hau]; exact g
    · rw [hau, hmo.2]; exact g
    · rw [hau, hmo.2]; exact g
    · exact g
    · cases nk
    · cases nk
    · exact g

theorem noteAuthority_eq (a s : State) : ∃ ev, State.noteAuthority a s = { s with events := ev } := by
  unfold State.noteAuthority; split
  · exact ⟨_, rfl⟩
  · exact ⟨s.events, rfl⟩

/-- No outcome of a request breaks the law of the units. -/
theorem answered_units {s t : State} (w : s.WorkOwed) (h : s.UnitsDone) (g : s.Answered t) : t.UnitsDone := by
  have beside : ∀ u, s.Beside u → UnitsHold s.holds u ∧ u.holds = s.holds := by
    intro u hu
    exact ⟨unitsHold_same h (by rw [hu]) (by rw [hu]) (by rw [hu]) (by rw [hu]) (by rw [hu]) (by rw [hu]), holds_engines (by rw [hu])⟩
  cases g with
  | replied u c b hu => exact respond_unitsDone (beside u hu).1 (beside u hu).2
  | placed u op hu ha hk =>
    exact place_unitsDone (beside u hu).1 (beside u hu).2 (by rw [hu]; exact w.store)
      (plainOk (answers_plain ha).2 hk (answers_plain ha).1)
  | consulted op => exact consultLocks_unitsDone h w.store
  | enciphered r => exact same_unitsDone h rfl rfl rfl rfl rfl rfl rfl
  | dropped i g hi =>
    unfold State.UnitsDone
    rw [holds_engines (s := s) (by simp)]
    exact changing_units h (noKey w) w.store hi rfl rfl (fun c hc => by cases hc)
  | enabled c b hd =>
    have hb : s.busyEngine .b = none := by simp [State.busyEngine, Pair.get, hd]
    refine respond_unitsDone (p := s.holds) (unitsHold_same h rfl rfl rfl rfl rfl rfl) ?_
    rw [holds_rest, ← holds_none hb, put_self]

/-- Taking a frame keeps the law of the units. -/
theorem begin_units {s : State} {lane : LaneId} {hd : Header} (w : s.WorkDone) (h : s.UnitsDone) :
    (s.settleTick.beginExchange lane hd).UnitsDone := by
  unfold State.UnitsDone
  rw [holds_engines (s := s) (by simp)]
  exact unitsHold_same (settleTick_units h w.store) rfl rfl rfl rfl rfl rfl

/-- No request command breaks the law of the units. -/
theorem requested_units {s t : State} (w : s.WorkDone) (h : s.UnitsDone) (g : s.Requested t) : t.UnitsDone := by
  cases g with
  | held => exact h
  | overlapped =>
    exact same_unitsDone h (holds_engines (by simp)) (by simp) (by simp) (by simp) (by simp) (by simp) (by simp)
  | refused lane hd u c b hi hu =>
    exact respond_unitsDone (unitsHold_same (begin_units w h) (by rw [hu]) (by rw [hu]) (by rw [hu]) (by rw [hu]) (by rw [hu])
      (by rw [hu])) (holds_engines (by rw [hu]))
  | taken lane hd t hi ho ht => exact answered_units (begin_work (settleTick_work w) (notWorking (by simp; exact hi))) (begin_units w h) ht

end Sys2Proof.Machine
end

