-- ==== Sys2Proof/Tests/Slice0.lean ====
section
/-! SUPPORT. The tests: the spec's worked examples, ill-formed commands that the well-formedness checks refuse, frames
written out byte by byte, a few steps of commands, and for each obligation with hypotheses a concrete state and operands
that meet them together. Expected results come from the spec's own tables and examples. -/

namespace Sys2Proof.Tests

-- One theorem after another: each is checked by the kernel, and none waits in a thread of its own for the ones before it.
set_option Elab.async false

open Sys2Proof Sys2Proof.Machine

/-! ## Small states and records -/

/-- The meter of the worked examples of chapters 1 and 2. -/
def meter : MeterNumber := 412345678901

/-- The other meter of the worked examples. -/
def other : MeterNumber := 1103220045178

/-- The thirteen digit bytes of `meter`. -/
def meterBody : List Byte := [0, 4, 1, 2, 3, 4, 5, 6, 7, 8, 9, 0, 1]

/-- Class 1 of the worked cases of section 2.7. -/
def class1 : TariffClass := ⟨500, 200000, 1500, 500, [⟨14250, 350⟩, ⟨17980, 3500⟩], 21460⟩

/-- Class 4 of the worked cases. -/
def class4 : TariffClass := ⟨1000, 9999999, 0, 0, [], 20000⟩

/-- The record of case 1. -/
def record1 : MeterRecord :=
  { meter := meter, status := .active, tariffClass := 1, keyGeneration := 2, pendingGeneration := none, sequence := 45
    monthStamp := 412, monthEnergy := 300, chargePaid := 0, allowanceIssued := true, arrears := 12000, recoveryRate := 25
    carry := 4200, lastSale := none }

/-- The record of case 7. -/
def record7 : MeterRecord :=
  { record1 with tariffClass := 4, monthEnergy := 9995000, arrears := 0, carry := 0, allowanceIssued := false }

/-- A bank of class 1 alone, in force from month 412. -/
def bank1 : Bank := ⟨412, Vector.ofFn fun i => if i = 0 then some class1 else none⟩

/-- The office READY in month 412 with nothing in progress, `record1` in row 37, its bank active, its key in slot 0, and
authority for 20,000. Lane 0 is OPEN. -/
def office : State :=
  { office := .ready
    settings := { idleLimit := 600, dayLimit := 26, supervisorCode := 1234, officeId := 9 }
    lanes := (Vector.replicate 8 {}).set 0 { state := .opened, operator := some ⟨1, none⟩ }
    tariff := { active := some (0, bank1) }
    slots := (Vector.replicate 4 {}).set 0 { state := .loaded 2 77 }
    authority := { granted := 20000, month := 412 }
    store := { index := [(meter, 37)], conditions := [(3, .orphan), (37, .record), (90, .free)], freeList := [90], orphans := [3] }
    memory := { meters := [(37, ⟨some record1, {}⟩)] } }

/-- The office with counter lane 3 OPEN under the operator code 4321. -/
def counter : State :=
  office.setLane 3 { state := .opened, operator := some ⟨7, some 4321⟩ }

/-- A state whose store works at an operation, for a request of lane 0 in hand. -/
def during (s : State) (op : RowOp) : State :=
  { s with exchange := .working 0 ⟨0, 6, 1⟩ false, store := { s.store with inProgress := some { op := op } } }

/-- The same, with the office row formed. -/
def writing (s : State) (w : OfficeWrite) : State :=
  { s with exchange := .working 0 ⟨0, 6, 1⟩ false, store := { s.store with inProgress := some ⟨.office w, some {}, none⟩ } }

/-- Engine A on item 1 of a request of lane 3, one purchase on `meter`. -/
def atWork : BusyEngine := ⟨3, 30, [.purchase meter 10000], 0, .read, [], { month := 412 }⟩

/-- The office with engine A at work, holding the meter. -/
def selling : State :=
  { counter with
    engines := ⟨.busy atWork, .idle⟩
    locks := { engines := ⟨some meter, none⟩ }
    lanes := counter.lanes.set 3 { counter.lane 3 with inFlight := [(30, .a)] } }

/-! ## Check computations (R187, R191) -/

theorem test_check_digits : meterOk meter = true ∧ meterOk other = true ∧ meterOk 412345678902 = false := by decide +kernel

theorem test_frame_check_of_zero : frameCheck [0] = 64770 := by decide +kernel

/-! ## Well-formedness -/

theorem test_body_of_1020_bytes_fits : WellFormed (.vend 0 0 (List.replicate 1020 0)) := by decide +kernel

theorem test_longer_body_refused : ¬ WellFormed (.vend 0 0 (List.replicate 1021 0)) := by decide +kernel

theorem test_good_frame_is_no_bad_frame : ¬ WellFormed (.badFrame (requestFrame 3 .collect 258 [])) := by decide +kernel

theorem test_discarded_frame_needs_start_byte : ¬ WellFormed (.frameDiscarded [0, 1, 2]) := by decide +kernel

/-! ## Frames written out byte by byte (R184, R186, R187): start byte, length, lane, kind, tag, body, check -/

theorem test_frame_of_collect : requestFrame 3 .collect 258 [] = [165, 0, 4, 3, 3, 1, 2, 187, 11] := by decide +kernel

theorem test_decode_collect : decodeSelection [165, 0, 4, 3, 3, 1, 2, 187, 11] = .collect 3 258 [] := by decide +kernel

theorem test_decode_retire :
    decodeSelection ([0, 7] ++ [165, 0, 17, 0, 15, 0, 9, 0, 4, 1, 2, 3, 4, 5, 6, 7, 8, 9, 0, 1, 112, 255]) = .retire 0 9 meterBody := by
  decide +kernel

theorem test_decode_last_kind : decodeSelection [165, 0, 4, 0, 33, 0, 0, 131, 175] = .setOffice 0 0 [] := by decide +kernel

theorem test_lane_8_is_bad : classify [165, 0, 4, 8, 1, 0, 0, 33, 47] = .badLane ⟨8, 1, 0⟩ := by decide +kernel

theorem test_kinds_0_and_34_are_unknown : classify [165, 0, 4, 7, 0, 0, 5, 109, 38] = .unknownRequest 7 ⟨7, 0, 5⟩
    ∧ classify [165, 0, 4, 0, 34, 0, 5, 131, 141] = .unknownRequest 0 ⟨0, 34, 5⟩ := by decide +kernel

theorem test_no_table_bits : decodeTableWord 8 1 = none := rfl

/-! ## Worked cases of the purchase calculation (section 2.7) -/

theorem test_case_1 : calculate class1 record1 10000 = .ok
    { recovered := 2500, arrears := 9500, arrearsCleared := false, collected := 1500, chargePaid := 1500, bought := 344
      monthEnergy := 644, blockReached := 2, energyCost := 5998620, carry := 5580, allowance := none
      allowanceIssued := true } := by decide +kernel

theorem test_case_2 : (calculate class1 record1 200000).map (fun v => (v.recovered, v.bought, v.blockReached, v.carry))
    = .ok (12000, 9218, 3, 8420) := by decide +kernel

theorem test_case_3 : calculate class1 record1 400 = .error .limitLow ∧ calculate class1 record1 200001 = .error .limitHigh
    ∧ calculate class1 record1 0 = .error .nothingDue
    ∧ (calculate class1 record1 500).map (fun v => (v.recovered, v.collected, v.bought, v.carry)) = .ok (125, 375, 0, 4200) := by decide +kernel

theorem test_case_7 : calculate class4 record7 120000 = .error .amountOverflow
    ∧ (calculate class4 record7 99999).map (fun v => (v.bought, v.monthEnergy, v.carry)) = .ok (4999, 9999999, 19000) := by decide +kernel

/-! ## Digits of a token (R190) -/

theorem test_token_digits : tokenDigits 5000000000000
    = [0, 0, 0, 0, 0, 0, 0, 0, 0, 0, 0, 5, 0, 0, 0, 0, 0, 0, 0, 0, 0, 0, 0, 0] := by decide +kernel

/-! ## The zone filter (R76, R77) -/

/-- PAIR with component 1 on digits 0412 and component 2 on a leading 1. -/
def pairFilter : LaneSettings :=
  { mode := .pair
    code := ⟨#[⟨0, true⟩, ⟨4, true⟩, ⟨1, true⟩, ⟨2, true⟩, ⟨1, true⟩, ⟨0, false⟩, ⟨0, false⟩, ⟨0, false⟩], rfl⟩ }

theorem test_pair_filter : zoneHit pairFilter meter = some 1 ∧ zoneHit pairFilter other = some 2
    ∧ zoneHit pairFilter 3107445820938 = none ∧ zoneHit { pairFilter with mode := .closed } meter = none := by decide +kernel

/-! ## States that meet the hypotheses of the obligations: the link and the timers -/

/-- A reply of lane 0 that waits to be read. -/
def reply : Reply := ⟨⟨0, 6, 1⟩, .done, false, false, .empty⟩

/-- The office with that reply in REPLY_READY. -/
def replying : State := { office with exchange := .replyReady reply }

/-- The office after a TICK that brought lane 3 to the idle limit and the prescaler to 60. -/
def ticked : State :=
  { counter.setLane 3 { counter.lane 3 with idle := 600, expiryDue := true } with
    authority := { counter.authority with prescaler := 60, dayAge := 1559 } }

theorem witness_StepRunsFrontCommand : ({ office with pending := [.tick, .dispatch] } : State).pending = [.tick, .dispatch]
    ∧ office.pending = [] := by decide +kernel

theorem witness_FramesNotTaken : carriesFrame [0, 165] = true ∧ ({ office with resetHeld := true } : State).resetHeld = true
    ∧ (during office (.scan 0)).resetHeld = false ∧ (during office (.scan 0)).exchange = .working 0 ⟨0, 6, 1⟩ false
    ∧ replying.resetHeld = false ∧ replying.exchange = .replyReady reply := by decide +kernel

theorem witness_RequestsAreTurnedAway : (∀ s ∈ [State.reset, { office with office := .fault }, office],
      s.resetHeld = false ∧ s.exchange = .idle ∧ s.tickSettled = true)
    ∧ State.reset.office = .starting ∧ Kind.vend ≠ .readStatus ∧ office.office = .ready ∧ Kind.openLane.isCounter = false
    ∧ (1 : LaneId) ≠ 0 ∧ (office.setLane 0 { office.lane 0 with locked := true }).supervisorOpen = false
    ∧ ((office.setLane 0 { office.lane 0 with locked := true }).lane 0).state ≠ .closed
    ∧ (office.setLane 0 {}).supervisorOpen = false ∧ namesLaneZero [1, 0, 1, 0, 0, 0, 0] = false := by decide +kernel

theorem witness_BadFrameAnswers : office.resetHeld = false ∧ office.exchange = .idle ∧ office.tickSettled = true
    ∧ carriesFrame [1, 2] = false ∧ carriesFrame [165] = true ∧ frameVerifies (frameOf [165]) = false := by decide +kernel

theorem witness_ReplyReadFreesLink : replying.exchange = .replyReady reply ∧ (replyFrame reply).length = 11 := by
  decide +kernel

theorem witness_FramesDecodeToTheirRequest : WellFormed (.retire 0 9 meterBody)
    ∧ encodeRequest (.retire 0 9 meterBody) = some (requestFrame 0 .retire 9 meterBody) ∧ carriesFrame [0, 7] = false := by
  decide +kernel

theorem witness_OneWrongByteFailsTheCheck :
    frameVerifies (startByte :: [0, 4, 3] ++ 3 :: [1, 2, 187, 11]) = true ∧ (3 : Byte) ≠ 2 := by decide +kernel

theorem witness_TickCounts : (counter.setLane 3 { counter.lane 3 with idle := 599 }).tickSettled = true
    ∧ State.reset.tickSettled = true := by decide +kernel

theorem witness_TimerStepsAct : (ticked.lane 3).expiryDue = true ∧ (ticked.lane 2).expiryDue = false
    ∧ office.authority.prescaler < 60 ∧ 60 ≤ ticked.authority.prescaler
    ∧ (ticked.authority.overdue = false ∧ ticked.settings.dayLimit * 60 ≤ min 65535 (ticked.authority.dayAge + 1))
    ∧ (∀ age ∈ [119, 65535], ¬ (true = false ∧ 26 * 60 ≤ min 65535 (age + 1)))
    ∧ (119 < 65535 ∧ min 65535 (119 + 1) % 60 = 0) ∧ ¬ (65535 < 65535 ∧ min 65535 (65535 + 1) % 60 = 0) := by decide +kernel

theorem witness_DueStepsComeFirst : ticked.resetHeld = false ∧ ticked.exchange = .idle ∧ ticked.tickSettled = false := by
  decide +kernel

theorem witness_SupplyAndEngineB : supplyOf office.mainsOk true ≠ office.supply ∧ supplyOf true office.pwrWarn = office.supply
    ∧ office.TakesSupervisor ∧ office.engines.b = .disabled ∧ ({ office with engines := ⟨.idle, .idle⟩ } : State).TakesSupervisor
    ∧ ({ office with engines := ⟨.idle, .idle⟩ } : State).engines.b ≠ .disabled := by decide +kernel

/-- A marker of engine A for row 37. -/
def marker : Marker := ⟨37, { record1 with sequence := 46 }, 10000, { money := 10000 }, 1⟩

theorem witness_ResetLeaves : office.store.inProgress = none ∧ (during selling (.commitMarker .a marker)).current = some (.commitMarker .a marker)
    ∧ (during selling (.commitMeter .a marker)).current = some (.commitMeter .a marker)
    ∧ (writing office .closeDay).store.inProgress = some ⟨.office .closeDay, some {}, none⟩
    ∧ (during selling (.commitClear .b)).current = some (.commitClear .b)
    ∧ (∀ op ∈ [RowOp.rollMeter .a marker, .rollClear .b, .setTariff 1 bank1, .clearTariff 0, .loadKey 3 ⟨255, 5⟩, .dropKey 0 2,
      .setLane 7 {} false, .record (.retire meter), .counterRead 3 (.lookup meter), .scrub (.meter 16383), .startOffice .laneSettings,
      .startCommit .b, .scan 16383], (during office op).current = some op)
    ∧ (during selling (.itemRead .a meter)).current = some (.itemRead .a meter) ∧ selling.busyEngine .a = some atWork
    ∧ atWork.items[atWork.item]? = some (.purchase meter 10000) := by decide +kernel

/-- R124: a reset in the first write of a commit leaves the commit row as it was. -/
theorem test_marker_does_not_land_in_a_reset :
    ((during selling (.commitMarker .a marker)).landedMemory {}).commits.a.content = none := by decide +kernel

/-- R25, R147: a RESTORE whose read found the sequence word lost writes the image's sequence, also when a reset cuts it short. -/
theorem test_restore_landing_in_a_reset :
    (((during office (.record (.restore ⟨{ record1 with sequence := 40 }, [], 0, none⟩))).landedMemory
      { sequence := .uncorrectable }).meterRow 37).content.map (·.sequence) = some 40 := by decide +kernel

theorem test_restore_landing_in_a_reset_sound :
    (((during office (.record (.restore ⟨{ record1 with sequence := 40 }, [], 0, none⟩))).landedMemory {}).meterRow 37).content.map
      (·.sequence) = some 45 := by decide +kernel

/-! ## Lanes -/

theorem witness_Takes : office.Takes ∧ counter.Takes ∧ office.TakesSupervisor ∧ counter.TakesSupervisor := by decide +kernel

theorem witness_OpenLaneAnswers : office.Takes ∧ decodeOpenLane [7, 39, 15, 9, 9, 9, 9] = some (7, 9999, 9999)
    ∧ office.supervisorOpen = true ∧ (office.setLane 0 {}).Takes ∧ ((office.setLane 0 {}).lane 0).state = .closed
    ∧ decodeOpenLane [0, 0, 1, 1, 2, 3, 4] = some (0, 1, 1234) ∧ decodeOpenLane [8, 0, 1, 1, 2, 3, 4] = none
    ∧ decodeOpenLane [0, 0, 0, 1, 2, 3, 4] = none ∧ namesLaneZero [0, 0, 0, 1, 2, 3, 4] = true := by decide +kernel

theorem witness_CloseLaneAnswers : counter.TakesSupervisor ∧ (7 : Byte).toNat = (7 : LaneId).val ∧ 8 ≤ (8 : Byte).toNat := by
  decide +kernel

theorem witness_SetLaneAnswersAndTakesEffect : office.TakesSupervisor ∧ decodeSetLane [8] = none
    ∧ (decodeSetLane [7, 3, 0, 1, 0, 3, 9, 0, 0, 0, 0, 0, 0, 0, 1, 0, 0, 0, 0, 0, 0, 0]).isSome = true
    ∧ (during office (.setLane 7 pairFilter true)).current = some (.setLane 7 pairFilter true)
    ∧ (during office (.setLane 7 pairFilter true)).exchange = .working 0 ⟨0, 6, 1⟩ false := by decide +kernel

theorem witness_ChargesRaiseTheCount : (∀ n ∈ [127, 128, 254, 255], n ≤ 255) ∧ 0 < 8 ∧ (counter.lane 3).count < 255
    ∧ (counter.lane 3).state = .opened ∧ 255 ≤ 247 + 8 ∧ (128 ≤ 120 + 8 ∧ 246 + 8 < 255) ∧ 119 + 8 < 128 := by decide +kernel

/-! ## Records -/

/-- A read that finds the meter-number word lost, and one that finds a body word lost. -/
def lostNumber : Decay := { number := .uncorrectable }
def lostBody : Decay := { lost := 1 }

/-- The office with the record of row 37 in another status. -/
def withStatus (st : Status) : State :=
  { office with memory := { meters := [(37, ⟨some { record1 with status := st }, {}⟩)] } }

/-- The office with row 37 damaged, with its row an orphan, and with no free row. -/
def damagedOffice : State := { office with store := { office.store with damaged := [37] } }
def emptyIndex : State := { office with store := { office.store with index := [] } }
def fullTable : State := { office with store := { office.store with freeList := [] } }

/-- Engine A has read orphan row 3. -/
def readingOrphan : State :=
  { office with engines := ⟨.busy { atWork with work := { atWork.work with row := some 3 } }, .disabled⟩ }

theorem witness_EnquiriesArePlaced : counter.Takes ∧ (decodeMeter meterBody).map CounterQuery.lookup = some (.lookup meter)
    ∧ (decodeQuote (meterBody ++ [5, 245, 224, 255])).map (fun p => CounterQuery.quote p.1 p.2) = some (.quote meter 99999999)
    ∧ decodeQuote (meterBody ++ [5, 245, 225, 0]) = none := by decide +kernel

theorem witness_EnquiryReadsAnswer : (during office (.counterRead 3 (.lookup meter))).current = some (.counterRead 3 (.lookup meter))
    ∧ (during office (.counterRead 3 (.quote meter 0))).exchange = .working 0 ⟨0, 6, 1⟩ false
    ∧ (during emptyIndex (.counterRead 3 (.reprint meter))).store.rowOf meter = none
    ∧ (during office (.counterRead 3 (.lookup meter))).store.rowOf meter = some 37
    ∧ 37 ∈ (during damagedOffice (.counterRead 3 (.lookup meter))).store.damaged
    ∧ 37 ∉ (during office (.counterRead 3 (.lookup meter))).store.damaged
    ∧ office.reading 37 lostNumber = .noNumber ∧ office.reading 37 lostBody = .damaged ∧ office.reading 37 {} = .record record1
    ∧ (withStatus .suspended).reading 37 {} = .record { record1 with status := .suspended }
    ∧ calculate class1 record1 499 = .error .limitLow ∧ calculate class1 record1 200001 = .error .limitHigh
    ∧ (calculate class1 record1 500).map (fun v => (purchaseGroup record1 v).map (·.1)) = .ok []
    ∧ (∀ n ∈ [99999998, 99999999], (calculate class1 { record1 with sequence := n } 10000).map
        (fun v => (purchaseGroup { record1 with sequence := n } v).map (·.1)) = .ok [.credit]) := by decide +kernel

theorem test_quote_at_the_last_sequence :
    (match quoteOutcome (some class1) { record1 with sequence := 99999998 } 10000 with | .pass _ k n => (k, n) | _ => ([], 0))
      = ([.credit], 99999999)
    ∧ quoteOutcome (some class1) { record1 with sequence := 99999999 } 10000 = .sequenceExhausted := by decide +kernel

theorem witness_ReadsTakeTheirFindings : ((office.memory.meterRow 37).words.after lostNumber).number = .uncorrectable
    ∧ ((office.memory.meterRow 37).words.after lostBody).number ≠ .uncorrectable
    ∧ 0 < ((office.memory.meterRow 37).words.after lostBody).body.lost
    ∧ ((office.memory.meterRow 37).words.after { sequence := .corrected, flipped := 2 }).sequence ≠ .uncorrectable
    ∧ ((office.memory.meterRow 37).words.after { sequence := .corrected, flipped := 2 }).corrections = 3
    ∧ (3 : Nat) ≠ 37 := by decide +kernel

theorem witness_RecordEditsConsultTheLocks : office.TakesSupervisor
    ∧ (decodeMeter meterBody).map (fun m => (RecordOp.retire m, m)) = some (.retire meter, meter)
    ∧ (decodeAmend (meterBody ++ [1, 15, 0, 0, 0, 0, 0, 0, 0, 1, 1, 0, 0, 0])).isSome = true := by decide +kernel

/-- A RESTORE of `record1` that names orphan row 3. -/
def restoring : RestoreFields := ⟨record1, [], 0, some 3⟩

theorem witness_RestoreIsVerified :
    ({ selling with cipher := { busy := some (.restore restoring) }, exchange := .working 0 ⟨0, 19, 1⟩ false } : State).cipher.busy
      = some (.restore restoring) ∧ selling.locks.engines.a = some restoring.image.meter := by decide +kernel

theorem witness_WaitersAreRetaken : office.locks.supervisor = none
    ∧ ({ supervisor := some (.retire meter), scrubber := some meter } : LockTable).supervisor = some (.retire meter)
    ∧ (RecordOp.retire meter).lockMeter = some meter
    ∧ (∀ c ∈ [(EngineId.b, meter)], selling.locks.free c.2 = false)
    ∧ ({ waiting := [(.a, meter)] } : LockTable).waiting = [] ++ (.a, meter) :: []
    ∧ selling.busyEngine .a = some atWork ∧ ({ waiting := [(.a, meter)] } : LockTable).engines.b ≠ some meter := by
  decide +kernel

theorem witness_StoreWorksInOrderOfArrival : office.store.inProgress = none
    ∧ (during office (.scan 0)).store.inProgress ≠ none ∧ office.store.waiting = []
    ∧ ({ office.store with waiting := [.scan 1, .scan 2] } : Store).waiting = .scan 1 :: [.scan 2] := by decide +kernel

/-- The store at work, with a RESTORE of an unknown meter on its list. -/
def restoreWaiting : State :=
  { office with store := { office.store with
      inProgress := some { op := .scrub .office }
      waiting := [.record (.restore ⟨{ record1 with meter := other }, [], 0, none⟩)] } }

theorem test_waiting_restore_takes_the_lowest_free_row : restoreWaiting.finishOp.takenRow = some 90
    ∧ restoreWaiting.finishOp.store.condition 90 = .allocated ∧ restoreWaiting.finishOp.store.freeList = [] := by
  decide +kernel

theorem witness_EnrolCreatesARecord : restoreWaiting.store.Lawful
    ∧ restoreWaiting.store.waiting = .record (.restore ⟨{ record1 with meter := other }, [], 0, none⟩) :: []
    ∧ restoring.target ≠ none ∧ office.store.inProgress = none ∧ office.store.Lawful ∧ office.store.rowOf other = none
    ∧ office.store.freeList = 90 :: [] ∧ office.store.rowOf meter ≠ none ∧ fullTable.store.freeList = []
    ∧ ({ office with store := { office.store with
          inProgress := some ⟨.record (.enrol ⟨other, 1, 1, 0, 0, 0⟩), none, some 90⟩ } } : State).takenRow = some 90
    ∧ (during fullTable (.record (.enrol ⟨other, 1, 1, 0, 0, 0⟩))).takenRow = none := by
  simp only [Store.Lawful]; decide +kernel

theorem witness_RecordEditsComplete : (during office (.record (.purge meter))).current = some (.record (.purge meter))
    ∧ (during office (.record (.purge meter))).exchange = .working 0 ⟨0, 6, 1⟩ false
    ∧ (during office (.record (.purge meter))).reading 37 {} = .record record1 ∧ record1.status ≠ .retired
    ∧ (withStatus .retired).reading 37 {} = .record { record1 with status := .retired }
    ∧ (during office (.record (.purge meter))).store.rowOf meter = some 37 := by decide +kernel

/-- Row 3, listed, has just been freed; orphan rows 4 and 5 are unlisted. -/
def crowded : Store :=
  { conditions := [(3, .free), (4, .orphan), (5, .orphan)], freeList := [3], orphans := [3], overflow := true }

theorem witness_PurgesFreeTheRow : (during (withStatus .retired) (.record (.purge meter))).store.Lawful
    ∧ (during (withStatus .retired) (.record (.purge meter))).current = some (.record (.purge meter))
    ∧ 37 ∉ (withStatus .retired).store.damaged
    ∧ (withStatus .retired).reading 37 {} = .record { record1 with status := .retired }
    ∧ (during office (.record (.purgeRow 3))).current = some (.record (.purgeRow 3)) ∧ office.store.condition 3 = .orphan
    ∧ 3 ∈ office.store.orphans ∧ office.store.condition 16383 ≠ .orphan
    ∧ readingOrphan.busyEngine .a = some { atWork with work := { atWork.work with row := some 3 } }
    ∧ office.store.Lawful ∧ crowded.Lawful ∧ 3 ∈ crowded.orphans ∧ 5 ∉ crowded.orphans
    ∧ (crowded.condition 5 = .orphan ∧ 5 ∉ crowded.orphans.filter (· ≠ 3))
    ∧ (crowded.condition 4 = .orphan ∧ 4 ∉ crowded.orphans.filter (· ≠ 3)) := by
  simp only [Store.Lawful]; decide +kernel

/-- R23: the lowest-numbered orphan row left out of the list takes the freed place, and row 5 stays unlisted. -/
theorem test_orphan_list_is_refilled : (crowded.unlistOrphan 3).orphans = [4] ∧ (crowded.unlistOrphan 3).overflow = true := by
  decide +kernel

theorem witness_RestoreWritesTheImage : (during emptyIndex (.record (.restore restoring))).current = some (.record (.restore restoring))
    ∧ emptyIndex.store.rowOf restoring.image.meter = none ∧ restoring.target = some 3 ∧ emptyIndex.store.condition 3 = .orphan
    ∧ office.store.rowOf restoring.image.meter = some 37 ∧ office.store.condition 4 ≠ .orphan
    ∧ (during fullTable (.record (.restore { restoring with target := none }))).takenRow = none
    ∧ (office.wordsAt 37 { sequence := .uncorrectable }).sequence = .uncorrectable := by decide +kernel

/-! ## Tariffs and the purchase calculation -/

theorem witness_TariffRequestsAnswer : office.TakesSupervisor
    ∧ checkTariff 412 ([1, 157] ++ (1 :: [0, 0, 0, 1, 0, 152, 150, 127, 0, 1, 134, 159, 3, 232, 1, 0, 1, 134, 159, 0, 0, 0, 0]
        ++ List.replicate 24 0) ++ List.replicate 672 0)
      = .ok ⟨413, Vector.ofFn fun i => if i = 0 then some ⟨1, 9999999, 99999, 1000, [], 99999⟩ else none⟩ := by decide +kernel

/-- The office after a CLOSE_MONTH that has handed the unit month 413, in which the pending bank comes into force. -/
def advancing : State :=
  { office with
    authority := { office.authority with month := 413 }
    tariff := { active := some (0, bank1), pending := some (1, { bank1 with effective := 413 }), advances := [413] } }

theorem witness_TariffRequestsAfterAnAdvance : advancing.TakesSupervisor ∧ advancing.tariff.advances = [413]
    ∧ (advancing.after [.monthAdvance]).tariff.pending = none := by decide +kernel

/-- Class 4 in the fields of R30 by the encodings of R184 and R185: its one block has no threshold. -/
theorem test_class_in_a_reply : classBytes (some class4)
    = [1, 0, 3, 232, 152, 150, 127, 0, 0, 0, 0, 0, 1, 0, 78, 32, 0, 0, 0, 0] := by decide +kernel

/-- R34, R35: with the advance still waiting, SET_TARIFF writes the row of the bank that is no longer active, and
CLEAR_PENDING_TARIFF finds no pending bank. -/
theorem test_advance_comes_before_the_banks_are_chosen :
    (advancing.settleTariff.tariff.writeRow, advancing.settleTariff.tariff.pending) = ((0 : Fin 2), none)
    ∧ (advancing.after [.clearPendingTariff 0 1 []]).exchange
      = .replyReady ⟨⟨0, 21, 1⟩, .done, false, false, .bankCleared false⟩ := by decide +kernel

theorem witness_TariffBanksChange : (during office (.setTariff 1 bank1)).current = some (.setTariff 1 bank1)
    ∧ (during office (.clearTariff 1)).current = some (.clearTariff 1)
    ∧ ({ advances := [412, 413], pending := some (1, bank1) } : TariffUnit).advances = 412 :: [413]
    ∧ bank1.effective ≤ 412 ∧ 411 < bank1.effective := by decide +kernel

theorem witness_PurchaseConservesMoney : record1.recoveryRate ≤ 50 ∧ (calculate class1 record1 10000).isOk = true
    ∧ (calculate class1 { record1 with pendingGeneration := some 3, recoveryRate := 50 } 0).isOk = true := by decide +kernel

theorem witness_EveryTenthIsBoughtAtItsBlocksPrice : 0 < 10000 ∧ (class1.bounded.map (·.threshold)).Pairwise (· < ·)
    ∧ (∀ b ∈ class1.bounded, 0 < b.price) ∧ 0 < class1.lastPrice ∧ (calculate class1 record1 10000).isOk = true := by
  decide +kernel

theorem witness_CalculationFollowsItsStages : (0 < 499 ∧ 499 < class1.tenderMin) ∧ (class1.tenderMax < 200001)
    ∧ (class1.tenderMin ≤ 500 ∧ 200000 ≤ class1.tenderMax) ∧ record1.allowanceIssued = true ∧ record1.pendingGeneration = none
    ∧ class4.bounded = [] ∧ 9999999 < record7.monthEnergy + 100000000 / class4.lastPrice
    ∧ ((class1.bounded.map (·.threshold)).Pairwise (· < ·) ∧ (∀ b ∈ class1.bounded, 0 < b.price) ∧ 0 < class1.lastPrice)
    ∧ (class4.bounded.map (·.threshold)).Pairwise (· < ·) ∧ calculate class4 record7 120000 = .error .amountOverflow := by
  decide +kernel

/-! ## Tokens, keys and the cipher -/

/-- Two credit tokens of `meter` under generation 2. -/
def planned : PlannedToken := ⟨.credit, 46, 2, 344, none⟩
def plannedLast : PlannedToken := ⟨.credit, 99999999, 2, 344, none⟩

theorem witness_TokensOfOneMeterAreDistinct : (∃ t, computeToken office.slots meter planned = some t)
    ∧ (∃ u, computeToken office.slots meter plannedLast = some u) ∧ planned.generation = plannedLast.generation
    ∧ planned.sequence ≤ 99999999 ∧ plannedLast.sequence ≤ 99999999 ∧ planned.sequence ≠ plannedLast.sequence :=
  ⟨⟨_, rfl⟩, ⟨_, rfl⟩, by decide +kernel⟩

/-- Engine A at the computation of its one token. -/
def enciphering : State :=
  { selling with
    cipher := { busy := some (.token .a meter planned), lastServed := .a }
    engines := ⟨.busy { atWork with
      stage := .tokens, work := { atWork.work with planned := [planned], record := some record1, row := some 37 } }, .idle⟩ }

theorem witness_TokenComputationsComplete : enciphering.cipher.busy = some (.token .a meter planned)
    ∧ (enciphering.busyEngine .a).map (·.work.planned) = some [planned] ∧ atWork.items[atWork.item]? = some (.purchase meter 10000)
    ∧ officeKeyOf enciphering.slots planned.generation = some 77 ∧ planned.confirms = none
    ∧ (⟨.keyChangeB, 47, 2, 0, some 2⟩ : PlannedToken).confirms = some 2 := by decide +kernel

theorem witness_CipherServesInOrderOfArrival : office.cipher.busy = none ∧ enciphering.cipher.busy ≠ none
    ∧ office.cipher.waiting = [] ∧ office.cipher.lastServed = .b ∧ enciphering.cipher.lastServed = .a
    ∧ (CipherRequest.restore restoring).engine = none
    ∧ ({ waiting := [.restore restoring] } : Cipher).waiting = .restore restoring :: [] := by decide +kernel

theorem witness_KeyRequestsAnswer : office.TakesSupervisor ∧ (4 : Byte).toNat = 4 ∧ (3 : Byte).toNat = (3 : SlotId).val
    ∧ office.slots[(3 : SlotId)].state = .empty ∧ office.slots[(0 : SlotId)].state = .loaded 2 77 := by decide +kernel

theorem witness_KeyChangesComplete :
    ({ office with cipher := { busy := some (.loadKey ⟨3, 255, 0, 0⟩) }, exchange := .working 0 ⟨0, 23, 1⟩ false } : State).cipher.busy
      = some (.loadKey ⟨3, 255, 0, 0⟩)
    ∧ (during office (.loadKey 3 ⟨255, 5⟩)).current = some (.loadKey 3 ⟨255, 5⟩)
    ∧ (during office (.dropKey 0 2)).current = some (.dropKey 0 2) := by decide +kernel

/-! ## The vend engines -/

/-- Lane 3 with two requests queued, the first of one purchase. -/
def queued : State :=
  counter.setLane 3 { counter.lane 3 with queue := [⟨30, [.purchase meter 10000]⟩, ⟨31, [.service meter .clearTamper 0]⟩] }

/-- The same office with both engines enabled and lane 3 served by engine B alone. -/
def queuedForB : State :=
  { queued with
    engines := ⟨.idle, .idle⟩
    laneSettings := (Vector.replicate 8 {}).set 3 { maskA := false, maskB := true } }

theorem witness_DispatchServesThePriorities : office.choose .a = none ∧ office.choose .b = none ∧ queued.choose .a = some 3
    ∧ queuedForB.choose .a = none ∧ queuedForB.choose .b = some 3
    ∧ (queued.lane 3).queue.map (·.items) = [Item.purchase meter 10000 :: [], [.service meter .clearTamper 0]] := by
  decide +kernel

theorem witness_ItemsPassOrAreRefused : (during selling (.itemRead .a meter)).current = some (.itemRead .a meter)
    ∧ (during selling (.itemRead .a meter)).busyEngine .a = some atWork
    ∧ atWork.items[atWork.item]? = some (.purchase meter 10000)
    ∧ (during selling (.itemRead .a meter)).store.rowOf meter = some 37 ∧ 37 ∉ selling.store.damaged
    ∧ (during selling (.itemRead .a meter)).reading 37 {} = .record record1 ∧ record1.status = .active
    ∧ selling.authority.overdue = false ∧ neededSlots selling.slots (record1.rollover 412) = some [0]
    ∧ selling.tariff.snapshot 1 = some class1 ∧ neededSlots (Vector.replicate 4 {}) record1 = none ∧ [(0 : SlotId)].Nodup
    ∧ ([0, 3] : List SlotId).Nodup := by decide +kernel

/-- Engine A at COMMIT, on item 1 of two. -/
def committing : BusyEngine := { atWork with stage := .commit, items := [.purchase meter 10000, .purchase other 0] }

theorem witness_CommitWritesInOrder : (during selling (.commitMarker .a marker)).current = some (.commitMarker .a marker)
    ∧ (during selling (.commitMeter .b marker)).current = some (.commitMeter .b marker)
    ∧ (writing selling (.commit .a marker)).store.inProgress = some ⟨.office (.commit .a marker), some {}, none⟩
    ∧ (writing selling (.commit .a marker)).busyEngine .a = some atWork
    ∧ ({ tokens := [⟨.credit, 46, 2, 344, 5⟩] } : WorkingValues).tokens.getLast? = some ⟨.credit, 46, 2, 344, 5⟩
    ∧ ({} : WorkingValues).calculation = none ∧ ({} : WorkingValues).tokens = [] ∧ record1.pendingGeneration = none := by
  decide +kernel

theorem witness_CommittedItemCloses :
    ∀ s ∈ [during selling (.commitClear .a), { during selling (.commitClear .a) with supply := .holding }],
      s.current = some (.commitClear .a) ∧ s.busyEngine .a = some atWork
        ∧ atWork.items[atWork.item]? = some (.purchase meter 10000) ∧ atWork.items[atWork.item + 1]? = none
        ∧ committing.items[committing.item + 1]? = some (.purchase other 0) ∧ ([0, 3] : List SlotId).Nodup := by decide +kernel

/-! ## Authority, settings, flags -/

/-- A grant with serial 1 for office 9. -/
def granting : GrantFields := ⟨9, 1, 100000000, [], 0⟩

/-- The office with the id of the factory. -/
def factory : State := { office with settings := { office.settings with officeId := 0 } }

theorem witness_GrantAnswers : office.TakesSupervisor
    ∧ decodeGrant [0, 0, 0, 9, 0, 0, 0, 1, 5, 245, 225, 0, 0, 0, 0, 0, 0, 0, 0, 0]
      = some { granting with message := [0, 0, 0, 9, 0, 0, 0, 1, 5, 245, 225, 0] }
    ∧ ({ office with cipher := { busy := some (.grant granting) }, exchange := .working 0 ⟨0, 27, 1⟩ false } : State).cipher.busy
      = some (.grant granting)
    ∧ (writing office (.grant 5 1)).store.inProgress = some ⟨.office (.grant 5 1), some {}, none⟩
    ∧ (writing office (.grant 5 1)).exchange = .working 0 ⟨0, 6, 1⟩ false
    ∧ factory.TakesSupervisor ∧ factory.settings.officeId = 0 := by decide +kernel

/-- R182: a grant for office 0 matches no office, not even one with the factory id. -/
theorem test_factory_office_takes_no_grant :
    decodeGrant [0, 0, 0, 0, 0, 0, 0, 1, 5, 245, 225, 0, 0, 0, 0, 0, 0, 0, 0, 0] = none := by decide +kernel

theorem witness_PeriodsClose : ({ office with authority := { office.authority with day := 65535, month := 65535 } } : State).TakesSupervisor
    ∧ (writing office .closeDay).store.inProgress = some ⟨.office .closeDay, some {}, none⟩
    ∧ (writing office .closeDay).authority.prescaler < 60
    ∧ (writing office .closeMonth).store.inProgress = some ⟨.office .closeMonth, some {}, none⟩
    ∧ (writing office .dayAge).store.inProgress = some ⟨.office .dayAge, some {}, none⟩
    ∧ (writing office .dayAge).exchange = .working 0 ⟨0, 6, 1⟩ false := by decide +kernel

theorem witness_OfficeSettingsTakeEffect : office.TakesSupervisor
    ∧ (decodeSetOffice [0, 60, 72, 232, 212, 165, 16, 0, 1, 0, 0, 0, 0, 0, 1, 9, 9, 9, 9, 0, 0, 0, 9]).map (·.lowMark)
      = some 1000000000000
    ∧ decodeSetMemoryAlarm [255, 255, 255, 255] = some (255, 16777215)
    ∧ (writing office (.setOffice { office.settings with dayLimit := 1 })).store.inProgress
      = some ⟨.office (.setOffice { office.settings with dayLimit := 1 }), some {}, none⟩
    ∧ (writing office (.setAlarm 23 0)).store.inProgress = some ⟨.office (.setAlarm 23 0), some {}, none⟩ := by decide +kernel

theorem witness_EventsAndStatusAnswer : office.TakesSupervisor ∧ decodeClearEvents [1, 0, 0, 0, 1, 0, 1]
      = some { authorityLow := true, supplyChange := true, memoryAlarm := true }
    ∧ State.reset.resetHeld = false ∧ State.reset.exchange = .idle ∧ State.reset.tickSettled = true := by decide +kernel

/-! ## The scrubber, start-up and the scan -/

/-- The office with the scrubber at another position. -/
def scrubbingAt (id : RowId) : State := { office with store := { office.store with scrubber := { position := id } } }

theorem witness_ScrubberVisitsEveryRow : (∀ id ∈ [.meter 37, .meter 36, .commit .b], (scrubbingAt id).office = .ready
      ∧ (scrubbingAt id).supply = .mains ∧ (scrubbingAt id).store.scrubber.reading = false)
    ∧ State.reset.office ≠ .ready ∧ (scrubbingAt (.meter 37)).store.condition 37 = .record
    ∧ (scrubbingAt (.meter 37)).store.meterAt 37 = some meter ∧ 37 ∉ office.store.damaged
    ∧ (scrubbingAt (.meter 36)).store.condition 36 ≠ .record ∧ selling.locks.engines.a = some meter
    ∧ office.locks.engines.a ≠ some meter ∧ office.locks.engines.b ≠ some meter ∧ (∀ c ∈ office.locks.waiting, c.2 ≠ meter)
    ∧ (during office (.scrub (.meter 37))).current = some (.scrub (.meter 37))
    ∧ (during office (.scrub (.commit .b))).current = some (.scrub (.commit .b)) ∧ 16382 < 16383 := by decide +kernel

/-- A claim that only waits holds no meter: the scrubber's claim is granted (R111). -/
theorem test_scrubber_before_a_waiting_claim :
    (let s : State := { scrubbingAt (.meter 37) with locks := { waiting := [(.b, meter)] } }
     (s.visitRow.locks, s.visitRow.retakeClaim.locks))
      = (let t : LockTable := { scrubber := some meter, waiting := [(.b, meter)] }
         (t, t)) := by decide +kernel

theorem witness_ScrubberPlainRows : ∀ n, RowId.commit .b ≠ .meter n := nofun

theorem witness_StartUpReadsAndRollsForward : (during State.reset (.startOffice .laneSettings)).current = some (.startOffice .laneSettings)
    ∧ (during State.reset (.startOffice (.key 3))).current = some (.startOffice (.key 3))
    ∧ ((State.reset.memory.rot (.key 3)).after { flipped := 2 }).lost = 0
    ∧ 0 < ((State.reset.memory.rot (.key 3)).after { lost := 1 }).lost
    ∧ (during State.reset (.startCommit .b)).current = some (.startCommit .b)
    ∧ (during State.reset (.rollMeter .a marker)).current = some (.rollMeter .a marker)
    ∧ (writing State.reset (.rollForward .a marker)).store.inProgress = some ⟨.office (.rollForward .a marker), some {}, none⟩
    ∧ (during State.reset (.rollClear .b)).current = some (.rollClear .b) := by decide +kernel

/-- Rows 37 and 40 hold records of one meter at start-up; row 37 has been scanned. -/
def scanning : State :=
  { during State.reset (.scan 40) with
    store := { index := [(meter, 37)], conditions := [(37, .record)], inProgress := some { op := .scan 40 } }
    memory := { meters := [(37, ⟨some record1, {}⟩), (40, ⟨some { record1 with sequence := 46 }, {}⟩)] } }

theorem witness_ScanSettlesEveryRow : scanning.current = some (.scan 40)
    ∧ (scanning.memory.meterRow 40).content = some { record1 with sequence := 46 } ∧ scanning.store.rowOf meter = some 37
    ∧ ((scanning.memory.meterRow 40).words.after {}).sequence ≠ .uncorrectable
    ∧ (∀ q ∈ (scanning.memory.meterRow 37).content.map (·.sequence), q < 46) ∧ (scanning.memory.meterRow 41).content = none
    ∧ ((scanning.memory.meterRow 40).words.after lostNumber).number = .uncorrectable
    ∧ (during State.reset (.scan 16383)).current = some (.scan 16383) := by decide +kernel

/-! ## What every step keeps -/

/-- The selling office makes its step. -/
theorem witness_StepKeepsMemoryTablesSupplyAndLocks : (∃ t, step { selling with pending := [.dispatch] } = .next t)
    ∧ selling.memory.wf ∧ selling.store.Lawful ∧ selling.SupplyLawful := by
  refine ⟨⟨_, rfl⟩, ?_⟩
  simp only [Store.Lawful, State.SupplyLawful]; decide +kernel

/-- The selling office with the read of engine A's item in progress, and its office row and key row as its units have them. -/
def lawful : State :=
  { selling with
    store := { selling.store with inProgress := some { op := .itemRead .a meter } }
    memory := { selling.memory with
      office := ⟨{ granted := 20000, month := 412 }, {}⟩
      keys := (Vector.replicate 4 ⟨none, {}⟩).set 0 ⟨some ⟨2, 77⟩, {}⟩ } }

theorem lawful_lanes (l : LaneId) : (lawful.lane l).Lawful := by
  revert l; simp only [Lane.Lawful]; decide +kernel

/-- Only lane 3 has a request in flight. -/
theorem lawful_inFlight (l : LaneId) : (lawful.lane l).inFlight = if l = 3 then [(30, .a)] else [] := by
  revert l; decide +kernel

theorem lawful_condition (n : Nat) :
    lawful.store.condition n = if n = 3 then .orphan else if n = 37 then .record else if n = 90 then .free else .undetermined := by
  simp only [Store.condition, lawful, selling, counter, office, State.setLane, sparseFind, eq_comm (b := n)]
  repeat' split
  all_goals simp_all

theorem lawful_rowOf (m n : Nat) : lawful.store.rowOf m = some n ↔ m = meter ∧ n = 37 := by
  simp only [Store.rowOf, lawful, selling, counter, office, State.setLane, sparseFind]
  split <;> simp_all [eq_comm]

theorem lawful_rows : lawful.store.RowsLawful := by
  refine ⟨by decide, ⟨fun m n h => ?_, fun m k n h g => ?_, fun n h => ?_, fun n => ?_, fun n h => by cases h⟩,
    fun o n h g => ?_, by decide +kernel, ?_⟩
  · rw [lawful_condition, ((lawful_rowOf m n).1 h).2]; rfl
  · exact ((lawful_rowOf m n).1 h).1.trans ((lawful_rowOf k n).1 g).1.symm
  · rw [lawful_condition] at h
    refine ⟨meter, (lawful_rowOf meter n).2 ⟨rfl, ?_⟩⟩
    split at h <;> [cases h; split at h <;> [assumption; (split at h <;> cases h)]]
  · rw [lawful_condition]
    show n ∈ [90] ↔ _
    split <;> [simp_all; split <;> [simp_all; split <;> simp_all]]
  · obtain rfl := Option.some.inj h
    cases g
  · intro o ho hs
    obtain rfl := List.mem_singleton.1 ho
    cases hs

theorem lawful_work : lawful.WorkLawful := by
  refine ⟨nofun, fun _ => rfl, by rintro (_ | _) <;> decide +kernel, ?_, by decide +kernel⟩
  rintro (_ | _) b h
  · obtain rfl := Option.some.inj h
    exact ⟨_, rfl, List.nodup_nil, rfl, rfl⟩
  · cases h

theorem lawful_units : lawful.UnitsLive := by
  refine ⟨by decide, by decide, rfl, ⟨rfl, rfl, rfl⟩, ?_, ?_, ?_, ?_, ?_, ?_, ?_, ?_⟩
  · rintro (_ | _) <;> decide
  · have key : ∀ i : SlotId, (lawful.memory.keys[i]).content = if i = 0 then some ⟨2, 77⟩ else none := by decide +kernel
    intro i j x y hi hj _
    rw [key] at hi hj
    split at hi <;> split at hj
    · simp_all
    all_goals cases hi <;> cases hj
  · intro i
    have h : lawful.slots[i].state = (if i = 0 then .loaded 2 77 else .empty)
        ∧ (lawful.memory.keys[i]).content = if i = 0 then some ⟨2, 77⟩ else none := by revert i; decide +kernel
    unfold KeySlot.matches
    rw [h.1, h.2]
    by_cases e : i = 0 <;> simp [e]
  · decide +kernel
  · rintro (_ | _) i h <;> cases h
  · decide
  · intro op ho; obtain rfl := List.mem_singleton.1 ho; rfl
  · intro o w ho hw; obtain rfl := Option.some.inj ho; cases hw

/-- A lawful office at work. -/
theorem witness_LawfulStatesStepSafely : lawful.Lawful := by
  refine ⟨by decide +kernel, by simp only [Store.Lawful]; decide +kernel, lawful_rows,
    by simp only [State.SupplyLawful]; decide +kernel, ?_, ⟨lawful_lanes, by decide +kernel, ?_, ?_, ?_⟩, lawful_work,
    .inr lawful_units⟩
  · exact ⟨fun m _ h => Option.some_ne_none m h.symm, fun m h => (Option.some_ne_none m h.symm).elim⟩
  · rintro (_ | _) b h
    · obtain rfl := Option.some.inj h; decide +kernel
    · exact (Option.some_ne_none b h.symm).elim
  · intro l t e h
    rw [lawful_inFlight] at h
    split at h
    · obtain ⟨rfl, rfl⟩ := Prod.mk.inj (List.mem_singleton.1 h)
      exact ⟨atWork, rfl, (by assumption : l = 3).symm, rfl⟩
    · cases h
  · intro l; rw [lawful_inFlight]; split <;> decide

end Sys2Proof.Tests
end

section
/-! The family of the meter account records. -/
namespace Sys2Proof.Machine

open Sys2Proof

/-! ### Requests for a record, taken and checked -/

/-- Zone admission fails for a counter lane whose filter does not hit. -/
theorem zoneAdmits_eq_false_iff (lane : LaneId) (st : LaneSettings) (m : MeterNumber) :
    zoneAdmits lane st m = false ↔ lane ≠ 0 ∧ zoneHit st m = none := by
  simp [zoneAdmits]

/-- A lane is unlocked as R79 says. -/
theorem Lane.unlocked_iff (l : Lane) :
    l.unlocked = true ↔ (l.state = .opened ∨ l.state = .restricted) ∧ l.locked = false := by
  simp [Lane.unlocked]

/-- A request that has just been taken answered without a charge. -/
theorem working_answer (s : State) (k : Kind) (lane : LaneId) (tag : Tag) (code : ResultCode) (hc : replyCharge code = 0) :
    (s.working k lane tag).answer code = s.replied k lane tag { s.lane lane with idle := 0 } code .empty :=
  working_respond s k lane tag code .empty hc

/-- A request that has just been taken refused for its check digit. -/
theorem working_badMeter (s : State) (k : Kind) (lane : LaneId) (tag : Tag) :
    (s.working k lane tag).answer .badMeterNumber = s.charged k lane tag 1 .badMeterNumber .empty :=
  working_charge s k lane tag _ _ 1 (by decide) rfl

/-- A request that has just been taken refused for its zone. -/
theorem working_outsideZone (s : State) (k : Kind) (lane : LaneId) (tag : Tag) :
    (s.working k lane tag).answer .outsideZone = s.charged k lane tag 8 .outsideZone .empty :=
  working_charge s k lane tag _ _ 8 (by decide) rfl

/-- The admission of an enquiry (R79). -/
theorem working_admitEnquiry (s : State) (k : Kind) (lane : LaneId) (tag : Tag) (owner : State → State) :
    (s.working k lane tag).admitEnquiry lane owner =
      if ¬ (((s.lane lane).state = .opened ∨ (s.lane lane).state = .restricted) ∧ (s.lane lane).locked = false) then
        s.replied k lane tag { s.lane lane with idle := 0 } .laneState .empty
      else owner (s.working k lane tag) := by
  have hu : ((s.working k lane tag).lane lane).unlocked = (s.lane lane).unlocked := by rw [working_lane]; rfl
  unfold State.admitEnquiry
  simp only [hu, working_answer s k lane tag .laneState rfl, ← Lane.unlocked_iff]
  cases (s.lane lane).unlocked <;> rfl

/-- Checks 2 and 3 of R14 on a request that has just been taken. -/
theorem working_placeCounterRead (s : State) (k : Kind) (lane : LaneId) (tag : Tag) (m : MeterNumber) (q : CounterQuery) :
    (s.working k lane tag).placeCounterRead lane m q =
      if meterOk m = false then s.charged k lane tag 1 .badMeterNumber .empty
      else if lane ≠ 0 ∧ zoneHit (s.settingsOf lane) m = none then s.charged k lane tag 8 .outsideZone .empty
      else (s.working k lane tag).place (.counterRead lane q) := by
  have hs : (s.working k lane tag).settingsOf lane = s.settingsOf lane := rfl
  unfold State.placeCounterRead
  simp only [hs, working_badMeter, working_outsideZone, ← zoneAdmits_eq_false_iff]
  cases meterOk m <;> cases zoneAdmits lane (s.settingsOf lane) m <;> rfl

/-- Settles O24: each of the three requests is taken, admitted and checked, field by field as its decoder splits. -/
theorem enquiriesArePlaced : Obligations.EnquiriesArePlaced := by
  rintro lane tag body s k c q ht (⟨rfl, rfl, rfl⟩ | ⟨rfl, rfl, rfl⟩ | ⟨rfl, rfl, rfl⟩) <;> dsimp only
  · show Host.Outcome.next _ = _
    rw [takeFrame_of_takes s _ lane tag _ ht (.inl rfl), State.lookupRequest, working_admitEnquiry]
    cases decodeMeter body with
    | none => simp only [Option.map_none, working_answer s .lookup lane tag .badField rfl]
    | some m => simp only [Option.map_some, working_placeCounterRead, CounterQuery.meter] <;> rfl
  · show Host.Outcome.next _ = _
    rw [takeFrame_of_takes s _ lane tag _ ht (.inl rfl), State.reprintRequest, working_admitEnquiry]
    cases decodeMeter body with
    | none => simp only [Option.map_none, working_answer s .reprint lane tag .badField rfl]
    | some m => simp only [Option.map_some, working_placeCounterRead, CounterQuery.meter] <;> rfl
  · show Host.Outcome.next _ = _
    rw [takeFrame_of_takes s _ lane tag _ ht (.inl rfl), State.quoteRequest, working_admitEnquiry]
    cases decodeQuote body with
    | none => simp only [Option.map_none, working_answer s .quote lane tag .badField rfl]
    | some p => simp only [Option.map_some, working_placeCounterRead, CounterQuery.meter] <;> rfl

/-- Checks 1 and 2 of R14 on a supervisor's request that has just been taken. -/
theorem working_receiveRecord {α : Type} (s : State) (k : Kind) (tag : Tag) (fields : Option α) (meter : α → MeterNumber)
    (owner : α → State) :
    (s.working k 0 tag).receiveRecord fields meter owner = match fields with
      | none => s.replied k 0 tag { s.lane 0 with idle := 0 } .badField .empty
      | some f => if meterOk (meter f) = false then s.charged k 0 tag 1 .badMeterNumber .empty else owner f := by
  cases fields with
  | none => exact working_answer s k 0 tag .badField rfl
  | some f =>
    simp only [State.receiveRecord, working_badMeter]
    cases meterOk (meter f) <;> rfl

/-- Settles O27: both requests are taken on lane 0, and the decoder's answer decides. -/
theorem enrolAndPurgeRowArePlaced : Obligations.EnrolAndPurgeRowArePlaced := by
  intro tag body s ht
  constructor
  · show Host.Outcome.next _ = _
    rw [takeSupervisor_of_takes s _ tag _ ht, State.enrolRequest, working_receiveRecord]
    cases decodeEnrol body <;> rfl
  · show Host.Outcome.next _ = _
    rw [takeSupervisor_of_takes s _ tag _ ht, State.purgeRowRequest]
    cases decodePurgeRow body with
    | none => simp only [working_answer s .purgeRow 0 tag .badField rfl]
    | some n => rfl

/-- An engine names the meter. -/
theorem LockTable.heldByEngine_iff (t : LockTable) (m : MeterNumber) :
    t.heldByEngine m = true ↔ t.engines.a = some m ∨ t.engines.b = some m := by
  simp [LockTable.heldByEngine]

/-- What the lock table does with a record operation that names a meter to it (R15), for a request that waits for its reply. -/
theorem consultLocks_of_working (s : State) (op : RecordOp) (m : MeterNumber) (lane : LaneId) (h : Header) (overlap : Bool)
    (ho : op.lockMeter = some m) (he : s.exchange = .working lane h overlap) :
    s.consultLocks op =
      if s.locks.engines.a = some m ∨ s.locks.engines.b = some m then s.completed lane h overlap .meterBusy .empty
      else if s.locks.scrubber = some m then { s with locks := { s.locks with supervisor := some op } }
      else s.place (.record op) := by
  have hb : s.answer .meterBusy = s.completed lane h overlap .meterBusy .empty := respond_of_working s lane h overlap _ _ he rfl
  simp only [State.consultLocks, ho, LockTable.heldByEngine_iff, hb]

/-- The same for a supervisor's request that has just been taken. -/
theorem working_consultLocks (s : State) (k : Kind) (tag : Tag) (op : RecordOp) (m : MeterNumber)
    (ho : op.lockMeter = some m) :
    (s.working k 0 tag).consultLocks op =
      if s.locks.engines.a = some m ∨ s.locks.engines.b = some m then
        s.replied k 0 tag { s.lane 0 with idle := 0 } .meterBusy .empty
      else if s.locks.scrubber = some m then { s.working k 0 tag with locks := { s.locks with supervisor := some op } }
      else (s.working k 0 tag).place (.record op) := by
  have hb : (s.working k 0 tag).answer .meterBusy = s.replied k 0 tag { s.lane 0 with idle := 0 } .meterBusy .empty :=
    working_answer s k 0 tag .meterBusy rfl
  simp only [State.consultLocks, ho, LockTable.heldByEngine_iff, hb]
  rfl

/-- Settles O28: each of the four requests is taken on lane 0, checked, and consults the lock table with its meter. -/
theorem recordEditsConsultTheLocks : Obligations.RecordEditsConsultTheLocks := by
  rintro tag body s k c op ht (⟨rfl, rfl, rfl⟩ | ⟨rfl, rfl, rfl⟩ | ⟨rfl, rfl, rfl⟩ | ⟨rfl, rfl, rfl⟩)
  · show Host.Outcome.next _ = _
    rw [takeSupervisor_of_takes s _ tag _ ht, State.amendRequest, working_receiveRecord]
    cases decodeAmend body with
    | none => rfl
    | some f => simp only [Option.map_some, working_consultLocks s .amend tag (.amend f) f.meter rfl]
  · show Host.Outcome.next _ = _
    rw [takeSupervisor_of_takes s _ tag _ ht, State.retireRequest, working_receiveRecord]
    cases decodeMeter body with
    | none => rfl
    | some m => simp only [Option.map_some, id, working_consultLocks s .retire tag (.retire m) m rfl]
  · show Host.Outcome.next _ = _
    rw [takeSupervisor_of_takes s _ tag _ ht, State.reinstateRequest, working_receiveRecord]
    cases decodeMeter body with
    | none => rfl
    | some m => simp only [Option.map_some, id, working_consultLocks s .reinstate tag (.reinstate m) m rfl]
  · show Host.Outcome.next _ = _
    rw [takeSupervisor_of_takes s _ tag _ ht, State.purgeRequest, working_receiveRecord]
    cases decodeMeter body with
    | none => rfl
    | some m => simp only [Option.map_some, id, working_consultLocks s .purge tag (.purge m) m rfl]

/-! ### The verification of RESTORE, and what waited -/

/-- Settles O29: on receipt the one arrival at the cipher is granted or waits; at completion the authentication decides. -/
theorem restoreIsVerified : Obligations.RestoreIsVerified := by
  refine ⟨fun tag body s ht => ?_, ?_⟩
  · show Host.Outcome.next _ = _
    rw [takeSupervisor_of_takes s _ tag _ ht, State.restoreRequest, working_receiveRecord]
    cases decodeRestore body with
    | none => rfl
    | some f =>
      have hc : (s.working .restore 0 tag).requestCipher (.restore f) = { s.working .restore 0 tag with
          cipher := match s.cipher.busy with
            | none => { s.cipher with busy := some (.restore f) }
            | some _ => { s.cipher with waiting := s.cipher.waiting ++ [.restore f] } } := by
        show ({ s.working .restore 0 tag with cipher := s.cipher.arrive [.restore f] } : State) = _
        rw [arrive_one, Cipher.request]
        cases hb : s.cipher.busy <;> simp only [hb] <;> rfl
      simp only [hc] <;> rfl
  · rintro f lane h overlap s t hb he rfl
    have hx : s.completeCipher.exchange = .working lane h overlap := he
    show Host.Outcome.next (match s.cipher.busy with
      | some (.restore f) => s.restoreVerified f
      | _ => s) = _
    rw [hb]
    simp only [State.restoreVerified]
    rw [consultLocks_of_working s.completeCipher (.restore f) f.image.meter lane h overlap rfl hx, State.answer,
      respond_of_working s.completeCipher lane h overlap _ _ hx rfl]
    by_cases ha : f.authentication = Config.authentication s.grantKey f.message
    · simp only [ha, ne_eq, not_true, if_true, if_false]; rfl
    · simp only [ha, ne_eq, not_false_eq_true, if_true, if_false]; rfl

/-- No holder names the meter. -/
theorem LockTable.free_iff (t : LockTable) (m : MeterNumber) :
    t.free m = true ↔ t.engines.a ≠ some m ∧ t.engines.b ≠ some m ∧ t.scrubber ≠ some m := by
  simp [LockTable.free, LockTable.heldByEngine, and_assoc]

/-- With every waiting claim on a held meter nothing is retaken. -/
theorem retakeClaim_of_held (s : State) (h : ∀ c ∈ s.locks.waiting, s.locks.free c.2 = false) : s.retakeClaim = s := by
  have hf : s.locks.waiting.find? (fun c => s.locks.free c.2) = none := by
    simpa [List.find?_eq_none] using h
  simp only [State.retakeClaim, hf]

/-- The first waiting claim on a free meter is granted, and leaves the list at its place. -/
theorem retakeClaim_of_free (s : State) (front back : List (EngineId × MeterNumber)) (e : EngineId) (m : MeterNumber)
    (hw : s.locks.waiting = front ++ (e, m) :: back) (hf : ∀ c ∈ front, s.locks.free c.2 = false)
    (hm : s.locks.free m = true) :
    s.retakeClaim = { s with locks := { s.locks with waiting := front ++ back } }.grantClaim e m := by
  have hn : (e, m) ∉ front := fun hc => by simp [hf _ hc] at hm
  have hfind : s.locks.waiting.find? (fun c => s.locks.free c.2) = some (e, m) := by
    rw [hw, List.find?_append, List.find?_eq_none.2 (by simpa using hf)]
    simp [hm]
  have her : s.locks.waiting.erase (e, m) = front ++ back := by
    rw [hw, List.erase_append_right _ hn, List.erase_cons_head]
  simp only [State.retakeClaim, hfind, her]

/-- A claim of a BUSY engine granted (R110, R113, R114). -/
theorem grantClaim_of_busy (s : State) (e : EngineId) (m : MeterNumber) (b : BusyEngine) (hb : s.busyEngine e = some b) :
    s.grantClaim e m = { s with
      locks := { s.locks with engines := s.locks.engines.set e (some m) }
      engines := s.engines.set e (.busy { b with
        stage := .read, work := { b.work with month := s.authority.month } }) }.place (.itemRead e m) := by
  simp only [State.grantClaim, hb]
  rfl

/-- Settles O30: the waiting supervisor request goes by the holders of its meter, the waiting claims by the first free one. -/
theorem waitersAreRetaken : Obligations.WaitersAreRetaken := by
  intro s
  refine ⟨fun hn => ?_, fun op m lane h overlap hs ho he => ?_, fun hh => ?_, ?_⟩
  · show Host.Outcome.next s.retakeSupervisor = _
    simp only [State.retakeSupervisor, hn]
  · show Host.Outcome.next s.retakeSupervisor = _
    simp only [State.retakeSupervisor, hs, ho]
    by_cases hsc : s.locks.scrubber = some m
    · simp [hsc]
    · have hx : ({ s with locks := { s.locks with supervisor := none } } : State).exchange = .working lane h overlap := he
      rw [consultLocks_of_working _ op m lane h overlap ho hx]
      simp only [hsc, if_false, and_false]
  · show Host.Outcome.next s.retakeClaim = _
    rw [retakeClaim_of_held s hh]
  · intro front back e m b hw hf ha hb hsc hbusy
    show Host.Outcome.next s.retakeClaim = _
    rw [retakeClaim_of_free s front back e m hw hf ((LockTable.free_iff _ _).2 ⟨ha, hb, hsc⟩),
      grantClaim_of_busy (s := { s with locks := { s.locks with waiting := front ++ back } }) e m b hbusy]

end Sys2Proof.Machine
end

section
/-! Proofs: the reads and the record operations at the store (R8, R10 to R12, R16 to R28, R50, R51). -/
namespace Sys2Proof.Machine

open Sys2Proof

/-! ### The read of a meter -/

/-- A meter that the index does not list. -/
theorem readMeter_of_unindexed {s : State} {m : MeterNumber} (d : Decay) (h : s.store.rowOf m = none) :
    s.readMeter m d = (s, .error .noMeter) := by
  simp only [State.readMeter, h]

/-- A meter whose row is in the damaged set: the row is not read. -/
theorem readMeter_of_damaged {s : State} {m : MeterNumber} {n : Nat} (d : Decay) (h : s.store.rowOf m = some n)
    (hd : n ∈ s.store.damaged) : s.readMeter m d = (s, .error .damaged) := by
  simp only [State.readMeter, h, List.contains_iff_mem.2 hd, if_true]

/-- What a read answers for what it found in the row. -/
def RowReading.answer (n : Nat) : RowReading → Except ResultCode (Nat × MeterRecord)
  | .noNumber => .error .noMeter
  | .damaged => .error .damaged
  | .blank => .error .noMeter
  | .record r => .ok (n, r)

/-- A meter whose row is read. -/
theorem readMeter_of_read {s : State} {m : MeterNumber} {n : Nat} (d : Decay) (h : s.store.rowOf m = some n)
    (hd : n ∉ s.store.damaged) : s.readMeter m d = (s.readRecordRow n d, (s.reading n d).answer n) := by
  have hc : s.store.damaged.contains n = false := by simpa using hd
  simp only [State.readMeter, h, hc, Bool.false_eq_true, if_false]
  cases s.reading n d <;> rfl

/-! ### Replies at a completion -/

/-- The reply of a completion that charges nothing, to the request in hand. -/
theorem finishOp_respond (t : State) (lane : LaneId) (h : Header) (overlap : Bool) (code : ResultCode) (body : ReplyBody)
    (he : t.exchange = .working lane h overlap) (hc : replyCharge code = 0) :
    t.finishOp.respond code body = t.finishOp.completed lane h overlap code body :=
  respond_of_working _ lane h overlap code body (by rw [finishOp_exchange, he]) hc

/-- The same with an empty body. -/
theorem finishOp_answer (t : State) (lane : LaneId) (h : Header) (overlap : Bool) (code : ResultCode)
    (he : t.exchange = .working lane h overlap) (hc : replyCharge code = 0) :
    t.finishOp.answer code = t.finishOp.completed lane h overlap code .empty :=
  finishOp_respond t lane h overlap code .empty he hc

/-! ### LOOKUP, REPRINT and QUOTE -/

/-- The completion of a counter read runs the read in progress. -/
theorem exec_counterReadDone {s : State} {lane : LaneId} {q : CounterQuery} (d : Decay)
    (hc : s.current = some (.counterRead lane q)) : exec (.counterReadDone d) s = .next (s.counterRead lane q d) := by
  show Host.Outcome.next (match s.current with
    | some (.counterRead lane query) => s.counterRead lane query d
    | _ => s) = _
  rw [hc]

theorem counterRead_of_error {s t : State} {lane : LaneId} {q : CounterQuery} {d : Decay} {code : ResultCode}
    (h : s.readMeter q.meter d = (t, .error code)) : s.counterRead lane q d = t.finishOp.answer code := by
  simp only [State.counterRead, h]

theorem counterRead_of_ok {s t : State} {lane : LaneId} {q : CounterQuery} {d : Decay} {n : Nat} {r : MeterRecord}
    (h : s.readMeter q.meter d = (t, .ok (n, r))) : s.counterRead lane q d = t.finishOp.counterReply lane n r q := by
  simp only [State.counterRead, h]

/-- Rollover leaves a record's tariff class. -/
theorem rollover_tariffClass (r : MeterRecord) (month : Nat) : (r.rollover month).tariffClass = r.tariffClass := by
  unfold MeterRecord.rollover
  split <;> rfl

/-- The hit looks at the lane's settings alone. -/
theorem hitOf_congr {s t : State} (h : t.laneSettings = s.laneSettings) (lane : LaneId) (m : MeterNumber) :
    t.hitOf lane m = s.hitOf lane m := by
  simp only [State.hitOf, State.settingsOf, h]

/-- The purchase calculation has four refusals (R39, R43, R46, R48). -/
theorem calculate_error {c : TariffClass} {r : MeterRecord} {tender : Nat} {code : RefusalCode}
    (h : calculate c r tender = .error code) :
    code = .limitLow ∨ code = .limitHigh ∨ code = .amountOverflow ∨ code = .nothingDue := by
  unfold calculate at h
  split at h
  · simp only [calculateZero] at h
    split at h <;> simp_all
  · split at h
    · simp_all
    · split at h
      · simp_all
      · simp only [calculatePaid] at h
        split at h <;> simp_all

/-- The quote of a calculation that succeeds (R51, R60). -/
theorem quoteOutcome_of_ok {c : TariffClass} {r : MeterRecord} {tender : Nat} {v : Calculation}
    (h : calculate c r tender = .ok v) :
    quoteOutcome (some c) r tender =
      if (purchaseGroup r v).map (·.1) = [] then .pass v [] 0
      else if 99999999 < r.sequence + ((purchaseGroup r v).map (·.1)).length then .sequenceExhausted
      else .pass v ((purchaseGroup r v).map (·.1)) (r.sequence + 1) := by
  simp only [quoteOutcome, h, sequenceRoom, maxSequence]
  cases purchaseGroup r v with
  | nil => simp
  | cons p rest =>
    by_cases hs : r.sequence + (rest.length + 1) ≤ 99999999
    · simp [hs, Nat.not_lt.2 hs]
    · simp [hs, Nat.not_le.1 hs]

/-- Settles O25: the read's answer is one of `readMeter`'s, and the reply follows from the record it read; the outcomes of a
quote are those of the calculation. -/
theorem enquiryReadsAnswer : Obligations.EnquiryReadsAnswer := by
  refine ⟨fun lane l q h overlap d s hc he => ?_, fun r tender => ⟨rfl, fun c => ⟨fun code hcode => ?_, ?_⟩⟩⟩
  · intro answers
    have refused : ∀ t code, t.exchange = .working l h overlap → replyCharge code = 0 →
        s.readMeter q.meter d = (t, .error code) → answers t code .empty := fun t code ht hcode hr => by
      show exec _ _ = _
      rw [exec_counterReadDone d hc, counterRead_of_error hr, finishOp_answer t l h overlap code ht hcode]
    refine ⟨fun hn => refused s _ he rfl (readMeter_of_unindexed d hn), fun n hn =>
      ⟨fun hd => refused s _ he rfl (readMeter_of_damaged d hn hd), fun hd => ?_⟩⟩
    have hread := readMeter_of_read d hn hd
    have ht : (s.readRecordRow n d).exchange = .working l h overlap := by rw [readRecordRow_exchange, he]
    refine ⟨fun hr => refused _ _ ht rfl (by rw [hread, hr]; rfl), fun hr => refused _ _ ht rfl (by rw [hread, hr]; rfl), ?_⟩
    rintro r rolled hr rfl
    have hok : s.readMeter q.meter d = (s.readRecordRow n d, .ok (n, r)) := by rw [hread, hr]; rfl
    have replied : ∀ code body, replyCharge code = 0 →
        (s.readRecordRow n d).finishOp.counterReply lane n r q = (s.readRecordRow n d).finishOp.respond code body →
        answers (s.readRecordRow n d) code body := fun code body hcode hrep => by
      show exec _ _ = _
      rw [exec_counterReadDone d hc, counterRead_of_ok hok, hrep, finishOp_respond _ l h overlap code body ht hcode]
    refine ⟨?_, ?_, ?_⟩
    · rintro m rfl
      refine replied _ _ rfl ?_
      have hh := hitOf_congr (s := s) (t := (s.readRecordRow n d).finishOp) (by simp) lane m
      simp only [State.counterReply, hh, MeterRecord.shown, finishOp_authority, readRecordRow_authority]
      rfl
    · rintro m rfl
      refine ⟨fun hg => replied _ _ rfl ?_, fun g hg => replied _ _ rfl ?_⟩
      · simp only [State.counterReply, hg, State.answer]
      · simp only [State.counterReply, hg]
    · rintro m tender rfl
      refine ⟨fun hs => replied _ _ rfl ?_, fun hs => replied _ _ rfl ?_⟩
      · simp only [State.counterReply, if_pos hs, State.answer]
      · simp only [State.counterReply, if_neg (not_not.2 hs), rollover_tariffClass, finishOp_authority,
          finishOp_tariff, readRecordRow_authority, readRecordRow_tariff]
        rfl
  · rcases calculate_error hcode with rfl | rfl | rfl | rfl <;> simp [quoteOutcome, hcode]
  · rintro v kinds hv rfl
    exact quoteOutcome_of_ok hv

/-! ### ENROL, and the row it takes -/

/-- The completion of a record operation runs the operation in progress. -/
theorem exec_recordWriteDone {s : State} {op : RecordOp} (d : Decay) (hc : s.current = some (.record op)) :
    exec (.recordWriteDone d) s = .next (s.recordDone op s.takenRow d) := by
  show Host.Outcome.next (match s.current with
    | some (.record op) => s.recordDone op s.takenRow d
    | _ => s) = _
  rw [hc]

/-- No row is taken for an indexed meter, for a named target or from an empty free list. -/
theorem allocation_none {t : Store} {m : MeterNumber} {named : Option Nat}
    (h : t.rowOf m ≠ none ∨ named ≠ none ∨ t.freeList = []) : t.allocation m named = none := by
  unfold Store.allocation
  split
  · rename_i hc
    obtain ⟨h1, h2⟩ := hc
    rcases h with h | h | h
    · exact absurd (Option.isNone_iff_eq_none.1 h1) h
    · exact absurd h2 h
    · rw [h]; rfl
  · rfl

/-- The lowest free row is taken for a meter with neither index entry nor target. -/
theorem allocation_some {t : Store} {m : MeterNumber} {n : Nat} {rest : List Nat} (h1 : t.rowOf m = none)
    (h2 : t.freeList = n :: rest) : t.allocation m none = some n := by
  simp [Store.allocation, h1, h2]

/-- What the store makes of an ENROL or RESTORE it takes, by the row that is allocated (R11, R17, R26). -/
def State.allocated (s : State) (op : RowOp) : Option Nat → State
  | some n => { s with store := { (s.store.setCondition n .allocated) with
      freeList := s.store.freeList.filter (· ≠ n), inProgress := some { op := op, row := some n } } }
  | none => { s with store := { s.store with inProgress := some { op := op } } }

theorem takeOp_enrol (s : State) (f : EnrolFields) :
    s.takeOp (.record (.enrol f)) = s.allocated (.record (.enrol f)) (s.store.allocation f.meter none) := by
  cases ha : s.store.allocation f.meter none <;> simp only [State.takeOp, State.allocated, ha]

theorem takeOp_restore (s : State) (f : RestoreFields) :
    s.takeOp (.record (.restore f)) = s.allocated (.record (.restore f)) (s.store.allocation f.image.meter f.target) := by
  cases ha : s.store.allocation f.image.meter f.target <;> simp only [State.takeOp, State.allocated, ha]

/-- An operation comes to the store at once when it is idle, and else from the front of its list (R148). -/
theorem taken_of_arrival {s t : State} {op : RowOp} {waiting : List RowOp}
    (h : s.store.inProgress = none ∧ s.store.waiting = waiting ∧ t = s.place op
      ∨ s.store.waiting = op :: waiting ∧ t = s.finishOp) :
    t = ({ s with store := { s.store with waiting := waiting } } : State).takeOp op := by
  rcases h with ⟨hp, rfl, rfl⟩ | ⟨hw, rfl⟩
  · rw [place_of_rest s op hp]
  · rw [finishOp_of_waiting s op waiting hw]

/-- A rising list loses its head alone when the head is filtered out. -/
theorem filter_head_of_rising {n : Nat} {rest : List Nat} (h : (n :: rest).Pairwise (· < ·)) :
    (n :: rest).filter (· ≠ n) = rest := by
  have hr := (List.pairwise_cons.1 h).1
  rw [List.filter_cons_of_neg (by simp), List.filter_eq_self]
  exact fun k hk => by simpa using (hr k hk).ne'

/-- Settles O32: the free row is allocated as the store takes the operation, and ENROL's completion goes by the row it took. -/
theorem enrolCreatesARecord : Obligations.EnrolCreatesARecord := by
  refine ⟨?_, fun f lane h overlap d s hc he => ⟨fun n hn => ?_, fun hn => ?_⟩⟩
  · intro s t op m target waiting hl hop ht
    have htake : t = ({ s with store := { s.store with waiting := waiting } } : State).allocated op
        (s.store.allocation m target) := by
      rw [taken_of_arrival ht]
      rcases hop with ⟨f, rfl, rfl, rfl⟩ | ⟨f, rfl, rfl, rfl⟩
      · exact takeOp_enrol _ f
      · exact takeOp_restore _ f
    refine ⟨fun hnone => ?_, fun n rest h1 h2 h3 => ?_⟩
    · rw [htake, allocation_none hnone]
      rfl
    · subst h2
      rw [htake, allocation_some h1 h3]
      have hp : (n :: rest).Pairwise (· < ·) := h3 ▸ hl.2.2.1
      refine ⟨rfl, rfl, rfl, ?_, ?_, fun k hk => ⟨(List.pairwise_cons.1 hp).1 k hk, ?_⟩⟩
      · show s.store.freeList.filter (· ≠ n) = rest
        rw [h3, filter_head_of_rising hp]
      · exact setCondition_condition { s.store with waiting := waiting } n .allocated
      · exact setCondition_condition_other { s.store with waiting := waiting } n k .allocated
          ((List.pairwise_cons.1 hp).1 k hk).ne'
  · rw [exec_recordWriteDone d hc, hn]
    show Host.Outcome.next ((s.createRecord n (f.record s.authority.month)).finishOp.respond .done (.row n)) = _
    rw [finishOp_respond _ lane h overlap _ _ (by rw [createRecord_exchange, he]) rfl]
    rfl
  · rw [exec_recordWriteDone d hc, hn]
    show Host.Outcome.next (if (s.store.rowOf f.meter).isSome then s.finishOp.answer .duplicateMeter
      else s.finishOp.answer .tableFull) = _
    rw [finishOp_answer s lane h overlap _ he rfl, finishOp_answer s lane h overlap _ he rfl]
    cases s.store.rowOf f.meter <;> rfl

/-! ### AMEND, RETIRE, REINSTATE and PURGE -/

theorem editRecord_of_error {s t : State} {m : MeterNumber} {d : Decay} {edit : MeterRecord → Option MeterRecord}
    {code : ResultCode} (h : s.readMeter m d = (t, .error code)) : s.editRecord m d edit = t.finishOp.answer code := by
  simp only [State.editRecord, h]

theorem editRecord_of_edited {s t : State} {m : MeterNumber} {d : Decay} {edit : MeterRecord → Option MeterRecord} {n : Nat}
    {r r' : MeterRecord} (h : s.readMeter m d = (t, .ok (n, r))) (he : edit r = some r') :
    s.editRecord m d edit = (t.writeRecord n r').finishOp.answer .done := by
  simp only [State.editRecord, h, he]

theorem editRecord_of_unsuited {s t : State} {m : MeterNumber} {d : Decay} {edit : MeterRecord → Option MeterRecord}
    {n : Nat} {r : MeterRecord} (h : s.readMeter m d = (t, .ok (n, r))) (he : edit r = none) :
    s.editRecord m d edit = t.finishOp.answer .meterState := by
  simp only [State.editRecord, h, he]

theorem purgeRecord_of_error {s t : State} {m : MeterNumber} {d : Decay} {code : ResultCode}
    (h : s.readMeter m d = (t, .error code)) : s.purgeRecord m d = t.finishOp.answer code := by
  simp only [State.purgeRecord, h]

theorem purgeRecord_of_unsuited {s t : State} {m : MeterNumber} {d : Decay} {n : Nat} {r : MeterRecord}
    (h : s.readMeter m d = (t, .ok (n, r))) (hr : r.status ≠ .retired) :
    s.purgeRecord m d = t.finishOp.answer .meterState := by
  simp only [State.purgeRecord, h, if_neg hr]

theorem purgeRecord_of_retired {s t : State} {m : MeterNumber} {d : Decay} {n : Nat} {r : MeterRecord}
    (h : s.readMeter m d = (t, .ok (n, r))) (hr : r.status = .retired) :
    s.purgeRecord m d = ({ t with
      memory := t.memory.writeFree n, store := (t.store.unindexRow n).release n } : State).finishOp.answer .done := by
  simp only [State.purgeRecord, h, if_pos hr]

/-- The pending generation that AMEND leaves, by the three cases of R19. -/
theorem AmendFields.pending_eq (f : AmendFields) (r : MeterRecord) :
    f.pending r = if f.removePending then none
      else if f.pendingGeneration = none then r.pendingGeneration
      else if f.pendingGeneration = some r.keyGeneration then none
      else f.pendingGeneration := by
  unfold AmendFields.pending
  cases f.pendingGeneration <;> simp

/-- The four record edits that steps 1 to 7 of R16 speak of, with what each is at the store: a refused read is answered, and
the record that is read goes to the edit. -/
theorem recordDone_of_error {op : RecordOp} {m : MeterNumber} {s t : State} {d : Decay} {row : Option Nat}
    {code : ResultCode}
    (ho : (∃ f : AmendFields, op = .amend f ∧ m = f.meter) ∨ op = .retire m ∨ op = .reinstate m ∨ op = .purge m)
    (h : s.readMeter m d = (t, .error code)) : s.recordDone op row d = t.finishOp.answer code := by
  rcases ho with ⟨f, rfl, rfl⟩ | rfl | rfl | rfl
  · exact editRecord_of_error h
  · exact editRecord_of_error h
  · exact editRecord_of_error h
  · exact purgeRecord_of_error h

/-- Settles O33: the read's refusals are answered, and a record that is read goes to its edit. -/
theorem recordEditsComplete : Obligations.RecordEditsComplete := by
  intro op m lane h overlap d s hc he ho answers
  have done : ∀ t code, t.exchange = .working lane h overlap → replyCharge code = 0 →
      s.recordDone op s.takenRow d = t.finishOp.answer code → answers t code := fun t code ht hcode hr => by
    show exec _ _ = _
    rw [exec_recordWriteDone d hc, hr, finishOp_answer t lane h overlap code ht hcode]
  refine ⟨fun hn => done s _ he rfl (recordDone_of_error ho (readMeter_of_unindexed d hn)), fun n hn =>
    ⟨fun hd => done s _ he rfl (recordDone_of_error ho (readMeter_of_damaged d hn hd)), fun hd => ?_⟩⟩
  have hread := readMeter_of_read d hn hd
  have ht : (s.readRecordRow n d).exchange = .working lane h overlap := by rw [readRecordRow_exchange, he]
  refine ⟨fun hr => done _ _ ht rfl (recordDone_of_error ho (by rw [hread, hr]; rfl)),
    fun hr => done _ _ ht rfl (recordDone_of_error ho (by rw [hread, hr]; rfl)), fun r hr => ?_⟩
  have hok : s.readMeter m d = (s.readRecordRow n d, .ok (n, r)) := by rw [hread, hr]; rfl
  have written : ∀ r', ((s.readRecordRow n d).writeRecord n r').exchange = .working lane h overlap := fun _ => ht
  refine ⟨?_, ?_, ?_, ?_⟩
  · rintro f rfl
    obtain rfl : m = f.meter := by simpa using ho
    refine ⟨fun hs => done _ _ ht rfl (editRecord_of_unsuited hok (by simp only [AmendFields.amend, if_pos hs])), fun hs => ?_⟩
    refine done _ _ (written _) rfl (editRecord_of_edited hok ?_)
    simp only [AmendFields.amend, if_neg hs, AmendFields.pending_eq]
  · rintro rfl
    exact ⟨fun hs => done _ _ ht rfl (editRecord_of_unsuited hok (by simp only [retireEdit, if_pos hs])),
      fun hs => done _ _ (written _) rfl (editRecord_of_edited hok (by simp only [retireEdit, if_neg hs]))⟩
  · rintro rfl
    exact ⟨fun hs => done _ _ ht rfl (editRecord_of_unsuited hok (by simp only [reinstateEdit, if_neg hs])),
      fun hs => done _ _ (written _) rfl (editRecord_of_edited hok (by simp only [reinstateEdit, if_pos hs]))⟩
  · rintro rfl hs
    exact done _ _ ht rfl (purgeRecord_of_unsuited hok hs)

/-! ### PURGE and PURGE_ROW -/

/-- An item in hand has read the row at its stage 2. -/
theorem rowInHand_iff (s : State) (n : Nat) :
    s.rowInHand n = true ↔ ∃ e b, s.busyEngine e = some b ∧ b.work.row = some n := by
  have hreads : s.rowInHand n
      = ((s.busyEngine .a).any (·.work.row == some n) || (s.busyEngine .b).any (·.work.row == some n)) := by
    unfold State.rowInHand
    dsimp only
    cases s.busyEngine .a <;> cases s.busyEngine .b <;> rfl
  rw [hreads, Bool.or_eq_true, Option.any_eq_true, Option.any_eq_true]
  constructor
  · rintro (⟨b, hb, hr⟩ | ⟨b, hb, hr⟩)
    · exact ⟨.a, b, hb, by simpa using hr⟩
    · exact ⟨.b, b, hb, by simpa using hr⟩
  · rintro ⟨e, b, hb, hr⟩
    cases e
    · exact .inl ⟨b, hb, by simpa using hr⟩
    · exact .inr ⟨b, hb, by simpa using hr⟩

/-- What a sparse table with rising keys lists is what a key finds. -/
theorem sparseFind_eq_some_iff {α : Type} {t : Sparse α} (h : sparseRising t) (n : Nat) (v : α) :
    sparseFind t n = some v ↔ (n, v) ∈ t := by
  induction t with
  | nil => simp [sparseFind]
  | cons e rest ih =>
    obtain ⟨k, w⟩ := e
    obtain ⟨hk, hr⟩ := List.pairwise_cons.1 h
    unfold sparseFind
    split
    · rename_i hkn
      subst hkn
      have hno : (k, v) ∉ rest := fun hm => absurd (hk k (List.mem_map_of_mem hm)) (lt_irrefl _)
      simp [hno, eq_comm]
    · rename_i hkn
      simp [ih hr, Ne.symm hkn]

/-- The unlisted orphans are the rows in condition ORPHAN that the list does not hold. -/
theorem mem_unlistedOrphans {t : Store} (h : sparseRising t.conditions) (k : Nat) :
    k ∈ t.unlistedOrphans ↔ t.condition k = .orphan ∧ k ∉ t.orphans := by
  have hc : t.condition k = .orphan ↔ (k, RowCondition.orphan) ∈ t.conditions := by
    rw [← sparseFind_eq_some_iff h, Store.condition]
    cases sparseFind t.conditions k <;> simp
  rw [hc]
  simp only [Store.unlistedOrphans, List.mem_map, List.mem_filter, Bool.and_eq_true, Bool.not_eq_true', beq_iff_eq]
  constructor
  · rintro ⟨⟨j, c⟩, ⟨hm, rfl, hj⟩, rfl⟩
    exact ⟨hm, by simpa using hj⟩
  · rintro ⟨hm, hk⟩
    exact ⟨(k, .orphan), ⟨hm, rfl, by simpa using hk⟩, rfl⟩

/-- They stand in rising order. -/
theorem unlistedOrphans_rising {t : Store} (h : sparseRising t.conditions) : t.unlistedOrphans.Pairwise (· < ·) :=
  List.Pairwise.sublist (List.Sublist.map _ List.filter_sublist) h

/-- An unlisted row leaves the orphan list as it was; the overflow mark says whether an orphan is unlisted (R23). -/
theorem unlistOrphan_of_unlisted {t : Store} {n : Nat} (h : n ∉ t.orphans) :
    t.unlistOrphan n = { t with overflow := !t.unlistedOrphans.isEmpty } := by
  have hc : t.orphans.contains n = false := by simpa using h
  simp only [Store.unlistOrphan, hc, Bool.false_eq_true, if_false]

/-- A listed row is taken out, and the first unlisted orphan joins the end (R23). -/
theorem unlistOrphan_of_listed {t u : Store} {n : Nat} (h : n ∈ t.orphans)
    (hu : u = { t with orphans := t.orphans.filter (· ≠ n) }) :
    t.unlistOrphan n = match u.unlistedOrphans with
      | [] => { u with overflow := false }
      | k :: rest => { u with orphans := u.orphans ++ [k], overflow := !rest.isEmpty } := by
  subst hu
  simp only [Store.unlistOrphan, List.contains_iff_mem.2 h, if_true] <;> rfl

/-- R23's rule for the orphan list: who leaves, who joins, and when the overflow mark stands. -/
theorem unlistOrphan_spec {t : Store} (n : Nat) (h : sparseRising t.conditions) {rest : List Nat}
    (hrest : rest = t.orphans.filter (· ≠ n)) :
    (t.unlistOrphan n = { t with orphans := (t.unlistOrphan n).orphans, overflow := (t.unlistOrphan n).overflow })
      ∧ ((t.unlistOrphan n).overflow = true ↔ ∃ k, t.condition k = .orphan ∧ k ∉ (t.unlistOrphan n).orphans)
      ∧ (n ∉ t.orphans → (t.unlistOrphan n).orphans = t.orphans)
      ∧ (n ∈ t.orphans → (∀ k, ¬ (t.condition k = .orphan ∧ k ∉ rest)) → (t.unlistOrphan n).orphans = rest)
      ∧ (n ∈ t.orphans → ∀ k, (t.condition k = .orphan ∧ k ∉ rest) →
        (∀ j, (t.condition j = .orphan ∧ j ∉ rest) → k ≤ j) → (t.unlistOrphan n).orphans = rest ++ [k]) := by
  subst hrest
  by_cases hn : n ∈ t.orphans
  · obtain ⟨u, hu⟩ : ∃ u : Store, u = { t with orphans := t.orphans.filter (· ≠ n) } := ⟨_, rfl⟩
    have hmem : ∀ k, k ∈ u.unlistedOrphans ↔ t.condition k = .orphan ∧ k ∉ t.orphans.filter (· ≠ n) := fun k => by
      have := mem_unlistedOrphans (t := u) (by rw [hu]; exact h) k
      rw [hu] at this ⊢
      exact this
    have hrise : u.unlistedOrphans.Pairwise (· < ·) := unlistedOrphans_rising (by rw [hu]; exact h)
    have hlist : u.orphans = t.orphans.filter (· ≠ n) := by rw [hu]
    rw [unlistOrphan_of_listed hn hu]
    cases hl : u.unlistedOrphans with
    | nil =>
      have hno : ∀ k, ¬ (t.condition k = .orphan ∧ k ∉ t.orphans.filter (· ≠ n)) := fun k hk => by
        simpa [hl] using (hmem k).2 hk
      refine ⟨by subst hu; rfl, ?_, fun hc => absurd hn hc, fun _ _ => hlist, fun _ k hk _ => absurd hk (hno k)⟩
      simp only [Bool.false_eq_true, false_iff, not_exists]
      rw [hlist]
      exact hno
    | cons k ks =>
      rw [hl] at hrise
      obtain ⟨hlow, -⟩ := List.pairwise_cons.1 hrise
      have hk : t.condition k = .orphan ∧ k ∉ t.orphans.filter (· ≠ n) := (hmem k).1 (by rw [hl]; exact List.mem_cons_self)
      refine ⟨by subst hu; rfl, ?_, fun hc => absurd hn hc, fun _ hno => absurd hk (hno k), fun _ j hj hmin => ?_⟩
      · have hks : ∀ j, j ∈ ks ↔ t.condition j = .orphan ∧ j ∉ u.orphans ++ [k] := fun j => by
          have hj := hmem j
          rw [hl, List.mem_cons] at hj
          rw [List.mem_append, hlist, not_or, ← and_assoc, ← hj, List.mem_singleton]
          constructor
          · exact fun hj => ⟨.inr hj, (hlow j hj).ne'⟩
          · rintro ⟨rfl | hj, hne⟩
            · exact absurd rfl hne
            · exact hj
        rw [← exists_congr hks]
        cases ks <;> simp
      · have : k ≤ j := by
          rcases List.mem_cons.1 (hl ▸ (hmem j).2 hj) with rfl | hjs
          · exact le_refl _
          · exact (hlow j hjs).le
        rw [hlist, le_antisymm this (hmin k hk)]
  · rw [unlistOrphan_of_unlisted hn]
    refine ⟨rfl, ?_, fun _ => rfl, fun hc => absurd hc hn, fun hc => absurd hc hn⟩
    rw [← exists_congr (mem_unlistedOrphans h)]
    cases t.unlistedOrphans <;> simp

/-- Settles O34: the read of PURGE finds a RETIRED record, PURGE_ROW goes by the row's condition and the items in hand, and the
orphan list is refilled by R23. -/
theorem purgesFreeTheRow : Obligations.PurgesFreeTheRow := by
  refine ⟨fun n lane h overlap d s he _ => ⟨?_, fun hc => ?_⟩, ?_⟩
  · rintro m r t hc hn hd hr hs rfl
    have hok : s.readMeter m d = (s.readRecordRow n d, .ok (n, r)) := by rw [readMeter_of_read d hn hd, hr]; rfl
    rw [exec_recordWriteDone d hc]
    show Host.Outcome.next (s.purgeRecord m d) = _
    rw [purgeRecord_of_retired hok hs, finishOp_answer _ lane h overlap _ (by simpa using he) rfl]
    rfl
  · rw [exec_recordWriteDone d hc]
    show (_ → Host.Outcome.next (s.purgeOrphan n) = _) ∧ (_ → (_ → Host.Outcome.next (s.purgeOrphan n) = _)
      ∧ (_ → Host.Outcome.next (s.purgeOrphan n) = _))
    unfold State.purgeOrphan
    refine ⟨fun ho => ?_, fun ho => ⟨fun hb => ?_, fun hb => ?_⟩⟩
    · rw [if_pos ho, finishOp_answer s lane h overlap _ he rfl]
    · rw [if_neg (not_not.2 ho), if_pos ((rowInHand_iff s n).2 hb), finishOp_answer s lane h overlap _ he rfl]
    · rw [if_neg (not_not.2 ho), if_neg (mt (rowInHand_iff s n).1 hb),
        finishOp_answer _ lane h overlap _ (by simpa using he) rfl]
      rfl
  · rintro n t x rest hl rfl hrest
    exact unlistOrphan_spec n hl.1 hrest

/-! ### RESTORE -/

/-- A sequence word that reads is known (R170). -/
theorem sequenceKnown_iff (w : MeterWords) : w.sequenceKnown = true ↔ w.sequence ≠ .uncorrectable := by
  simp [MeterWords.sequenceKnown]

/-- The sequence written over a row: the larger of the two where the stored word reads, the image's where it does not (R25). -/
theorem restoredSequence_eq (s : State) (n : Nat) (d : Decay) (image : Nat) :
    s.restoredSequence n d image =
      if (s.wordsAt n d).sequence = .uncorrectable then image
      else max ((s.memory.meterRow n).content.elim 0 (·.sequence)) image := by
  have hk := sequenceKnown_iff (s.wordsAt n d)
  unfold State.restoredSequence
  cases (s.memory.meterRow n).content with
  | none => simp
  | some r => by_cases hs : (s.wordsAt n d).sequence = .uncorrectable <;> simp_all

/-- A new record's row over a store that has counted what the read corrected. -/
theorem createRecord_counted (s : State) (n k : Nat) (r : MeterRecord) :
    (s.countErrors k).createRecord n r = { s with
      memory := s.memory.writeRecord n r
      store := (({ s.store with errorCount := min 16777215 (s.store.errorCount + k) } : Store).setCondition n
        .record).indexMeter r.meter n } := rfl

/-- Settles O35: by the meter's index entry, the named target and the row taken. -/
theorem restoreWritesTheImage : Obligations.RestoreWritesTheImage := by
  rintro f image lane h overlap d s hc he rfl refused overRow counted
  have himage : ∀ n, s.restoredImage f n d = overRow n := fun n => by
    simp only [State.restoredImage, restoredSequence_eq]
    rfl
  have refuse : ∀ code, replyCharge code = 0 → s.restoreRecord f s.takenRow d = s.finishOp.answer code → refused code :=
    fun code hcode hr => by
      show exec _ _ = _
      rw [exec_recordWriteDone d hc]
      show Host.Outcome.next (s.restoreRecord f s.takenRow d) = _
      rw [hr, finishOp_answer s lane h overlap code he hcode]
  have write : ∀ (t : State) body, t.exchange = .working lane h overlap →
      s.restoreRecord f s.takenRow d = t.finishOp.respond .done body →
      exec (.recordWriteDone d) s = .next (t.finishOp.completed lane h overlap .done body) := fun t body ht hr => by
    rw [exec_recordWriteDone d hc]
    show Host.Outcome.next (s.restoreRecord f s.takenRow d) = _
    rw [hr, finishOp_respond t lane h overlap .done body ht rfl]
  refine ⟨fun n hn => ⟨fun ht => refuse _ rfl ?_, fun ht => write _ _ he ?_⟩,
    fun hn => ⟨fun n ht => ⟨fun ho => refuse _ rfl ?_, fun ho => ⟨fun hb => refuse _ rfl ?_, fun hb => write _ _ he ?_⟩⟩,
      fun ht => ⟨fun hr => refuse _ rfl ?_, fun n hr => write _ _ he ?_⟩⟩⟩
  · obtain ⟨k, hk⟩ := Option.ne_none_iff_exists'.1 ht
    simp only [State.restoreRecord, hn, hk]
  · simp only [State.restoreRecord, hn, ht, State.restoreIndexed, himage]
    rfl
  · simp only [State.restoreRecord, hn, ht, if_pos ho]
  · simp only [State.restoreRecord, hn, ht, if_neg (not_not.2 ho), if_pos ((rowInHand_iff s n).2 hb)]
  · simp only [State.restoreRecord, hn, ht, if_neg (not_not.2 ho), if_neg (mt (rowInHand_iff s n).1 hb), State.restoreOrphan,
      himage]
    rw [createRecord_counted s n _ (overRow n)]
  · simp only [State.restoreRecord, hn, ht, hr]
  · simp only [State.restoreRecord, hn, ht, hr]
    rfl

end Sys2Proof.Machine
end

section
/-! Proofs: what the steps of a lane and the requests keep of the lanes' contexts (R74, R78 to R101). -/
namespace Sys2Proof.Machine

open Sys2Proof

/-! ### One lane -/

/-- Lane `l`'s context `x` may become `y`: a lawful one stays lawful, the in-flight list stands, and lane 0 stays CLOSED or
OPEN (R79, R89). -/
def Lane.Kept (x : Lane) (l : LaneId) (y : Lane) : Prop :=
  (x.Lawful → y.Lawful) ∧ y.inFlight = x.inFlight
    ∧ (l = 0 → x.state = .closed ∨ x.state = .opened → y.state = .closed ∨ y.state = .opened)

theorem Lane.Kept.refl (x : Lane) (l : LaneId) : x.Kept l x :=
  ⟨id, rfl, fun _ => id⟩

theorem Lane.Kept.trans {x y z : Lane} {l : LaneId} (h : x.Kept l y) (g : y.Kept l z) : x.Kept l z :=
  ⟨g.1 ∘ h.1, g.2.1.trans h.2.1, fun e => g.2.2 e ∘ h.2.2 e⟩

/-- A change of the idle seconds and the tally bears on no law. -/
theorem idleTally_kept (x : Lane) (l : LaneId) (n : Nat) (t : ShiftTally) : x.Kept l { x with idle := n, tally := t } :=
  ⟨id, rfl, fun _ => id⟩

/-- A lower count keeps a lane lawful. -/
theorem lawful_of_count {x : Lane} {n : Nat} (h : x.Lawful) (hn : n ≤ 255) : { x with count := n }.Lawful :=
  ⟨hn, h.2⟩

/-- A lane that enters BARRED loses its queue and its lock (R89). -/
theorem lawful_barred {x : Lane} {n : Nat} (h : x.Lawful) (hn : n ≤ 255) :
    { x with count := n, state := .barred, locked := false, queue := [], idle := 0, expiryDue := false }.Lawful := by
  obtain ⟨-, -, -, hflight, hback, -, -, -, -⟩ := h
  exact ⟨hn, Nat.zero_le _, .nil, hflight, hback, nofun, nofun, fun _ => rfl, nofun⟩

/-- An OPEN lane that becomes RESTRICTED (R88). -/
theorem lawful_restricted {x : Lane} {n : Nat} (h : x.Lawful) (hn : n ≤ 255) :
    { x with count := n, state := .restricted }.Lawful := by
  obtain ⟨-, hqueue, htags, hflight, hback, -, -, -, -⟩ := h
  exact ⟨hn, hqueue, htags, hflight, hback, fun _ => .inr rfl, fun _ => .inr rfl, nofun, nofun⟩

theorem laneRaiseCount_kept (x : Lane) (l : LaneId) (n : Nat) : x.Kept l (x.raiseCount (l != 0) n) := by
  have top : min 255 (x.count + n) ≤ 255 := Nat.min_le_left _ _
  by_cases hl : l = 0
  · subst hl
    exact ⟨fun h => lawful_of_count h top, rfl, fun _ => id⟩
  · unfold Lane.raiseCount
    dsimp only
    split
    · exact ⟨fun h => lawful_barred h top, rfl, fun e => absurd e hl⟩
    · split
      · exact ⟨fun h => lawful_restricted h top, rfl, fun e => absurd e hl⟩
      · exact ⟨fun h => lawful_of_count h top, rfl, fun _ => id⟩

theorem lowerCount_kept (x : Lane) (l : LaneId) : x.Kept l x.lowerCount :=
  ⟨fun h => lawful_of_count h ((Nat.sub_le _ _).trans h.1), rfl, fun _ => id⟩

theorem reportDone_kept (x : Lane) (l : LaneId) (i : Item) (n : Nat) : x.Kept l (x.reportDone i n) := by
  have told := idleTally_kept x l x.idle (x.tally.addDone i n)
  unfold Lane.reportDone
  cases i with
  | purchase m tender =>
    dsimp only
    split
    · exact told.trans (lowerCount_kept _ l)
    · exact told
  | service m kind amount => exact told

/-- An unlocked lane that counts idle seconds is OPEN or RESTRICTED (R85). -/
theorem unlocked_iff (x : Lane) :
    x.unlocked = true ↔ (x.state = .opened ∨ x.state = .restricted) ∧ x.locked = false := by
  simp [Lane.unlocked]

theorem laneTick_kept (x : Lane) (l : LaneId) (limit : Nat) : x.Kept l (x.tick limit) := by
  unfold Lane.tick
  split
  · rename_i hu
    refine ⟨fun ⟨hcount, hqueue, htags, hflight, hback, hlock, _, hbarred, hclosed⟩ => ?_, rfl, fun _ => id⟩
    exact ⟨hcount, hqueue, htags, hflight, hback, hlock, fun _ => ((unlocked_iff x).1 hu).1, hbarred, hclosed⟩
  · exact .refl x l

theorem laneExpire_kept (x : Lane) (l : LaneId) : x.Kept l x.expire := by
  unfold Lane.expire
  split
  · rename_i hd
    refine ⟨fun ⟨hcount, hqueue, htags, hflight, hback, _, hexpiry, hbarred, hclosed⟩ => ?_, rfl, fun _ => id⟩
    exact ⟨hcount, hqueue, htags, hflight, hback, fun _ => hexpiry hd, nofun, hbarred, hclosed⟩
  · exact .refl x l

/-- A queue shortened by a cancel (R95). -/
theorem cancelled_kept (x : Lane) (l : LaneId) (p : VendRequest → Bool) : x.Kept l { x with queue := x.queue.filter p } := by
  refine ⟨fun ⟨hcount, hqueue, htags, hflight, hback, hlock, hexpiry, hbarred, hclosed⟩ => ?_, rfl, fun _ => id⟩
  refine ⟨hcount, (List.length_filter_le _ _).trans hqueue, htags.sublist (List.filter_sublist.map _), hflight, hback,
    hlock, hexpiry, fun e => ?_, fun e => ⟨?_, (hclosed e).2⟩⟩
  · show List.filter p x.queue = []
    rw [hbarred e]
    rfl
  · have hq := (hclosed e).1
    simp only [Lane.quiet, Bool.and_eq_true, List.isEmpty_iff] at hq ⊢
    obtain ⟨⟨⟨hempty, hrest⟩, hfore⟩, hbackg⟩ := hq
    exact ⟨⟨⟨by rw [hempty]; rfl, hrest⟩, hfore⟩, hbackg⟩

/-- A request that passes checks 1, 6 and 7 of R93 joins the queue. -/
theorem queued_kept (x : Lane) (l : LaneId) (r : VendRequest) (ho : x.state = .opened) (hn : x.queue.length < 4)
    (ht : x.holdsTag r.tag = false) : x.Kept l { x with queue := x.queue ++ [r] } := by
  refine ⟨fun ⟨hcount, _, htags, hflight, hback, hlock, hexpiry, _, _⟩ => ?_, rfl, fun _ => id⟩
  refine ⟨hcount, ?_, ?_, hflight, hback, hlock, hexpiry, fun e => ?_, fun e => ?_⟩
  · rw [List.length_append]
    exact hn
  · simp only [Lane.holdsTag, Bool.or_eq_false_iff] at ht
    have fresh := ht.1.1.1
    rw [List.map_append]
    refine List.nodup_append.2 ⟨htags, List.nodup_singleton _, fun a ha b hb hab => ?_⟩
    obtain ⟨q, hq, rfl⟩ := List.mem_map.1 ha
    have := List.any_eq_false.1 fresh q hq
    simp_all
  · exact absurd (ho.symm.trans e) (by decide)
  · exact absurd (ho.symm.trans e) (by decide)

/-- The foreground result is handed over and the background takes its place (R99). -/
theorem collected_kept (x : Lane) (l : LaneId) (r : VendResult) (hr : x.foreground = some r) :
    x.Kept l { x with foreground := x.background, background := none } := by
  refine ⟨fun ⟨hcount, hqueue, htags, hflight, _, hlock, hexpiry, hbarred, hclosed⟩ => ?_, rfl, fun _ => id⟩
  refine ⟨hcount, hqueue, htags, ?_, nofun, hlock, hexpiry, hbarred, fun e => ?_⟩
  · simp only [Lane.waitingResults] at hflight ⊢
    simp only [Option.isSome_none, Bool.toNat_false]
    omega
  · have hq := (hclosed e).1
    simp [Lane.quiet, hr] at hq

theorem resumed_kept (x : Lane) (l : LaneId) : x.Kept l { x with locked := false } := by
  refine ⟨fun ⟨hcount, hqueue, htags, hflight, hback, _, hexpiry, hbarred, hclosed⟩ => ?_, rfl, fun _ => id⟩
  exact ⟨hcount, hqueue, htags, hflight, hback, nofun, hexpiry, hbarred, hclosed⟩

theorem signOn_kept (x : Lane) (l : LaneId) (o : Operator) : x.Kept l (x.signOn o) := by
  refine ⟨fun ⟨_, hqueue, htags, hflight, hback, _, _, _, _⟩ => ?_, rfl, fun _ _ => .inr rfl⟩
  exact ⟨Nat.zero_le _, hqueue, htags, hflight, hback, nofun, nofun, nofun, nofun⟩

theorem signOff_kept (x : Lane) (l : LaneId) (hq : x.quiet = true) : x.Kept l x.signOff := by
  refine ⟨fun ⟨hcount, hqueue, htags, hflight, hback, _, _, _, _⟩ => ?_, rfl, fun _ _ => .inl rfl⟩
  exact ⟨hcount, hqueue, htags, hflight, hback, nofun, nofun, nofun, fun _ => ⟨hq, rfl⟩⟩

theorem clearCount_kept (x : Lane) (l : LaneId) : x.Kept l x.clearCount := by
  unfold Lane.clearCount
  split
  · refine ⟨fun ⟨_, hqueue, htags, hflight, hback, _, _, _, _⟩ => ?_, rfl, fun _ _ => .inr rfl⟩
    exact ⟨Nat.zero_le _, hqueue, htags, hflight, hback, fun _ => .inl rfl, nofun, nofun, nofun⟩
  · exact ⟨fun h => lawful_of_count h (Nat.zero_le _), rfl, fun _ => id⟩

/-! ### All lanes -/

/-- Every lane's context may become what it is after. -/
def State.LanesKept (s t : State) : Prop :=
  ∀ l, (s.lane l).Kept l (t.lane l)

theorem State.LanesKept.trans {s t u : State} (h : s.LanesKept t) (g : t.LanesKept u) : s.LanesKept u :=
  fun l => (h l).trans (g l)

theorem lanesKept_of_lanes {s t : State} (h : t.lanes = s.lanes) : s.LanesKept t := fun l => by
  rw [lane_of_lanes h]
  exact .refl _ l

/-- A chain of operations, the last one named first. -/
theorem State.LanesKept.after {s t u : State} (g : t.LanesKept u) (h : s.LanesKept t) : s.LanesKept u :=
  h.trans g

theorem setLane_kept {s : State} {l : LaneId} {x : Lane} (h : (s.lane l).Kept l x) : s.LanesKept (s.setLane l x) :=
  fun k => by
    by_cases hk : k = l
    · subst hk
      rw [setLane_lane]
      exact h
    · rw [setLane_lane_other s l k x hk]
      exact .refl _ k

theorem updateLane_kept {s : State} {l : LaneId} {f : Lane → Lane} (h : (s.lane l).Kept l (f (s.lane l))) :
    s.LanesKept (s.updateLane l f) :=
  setLane_kept h

theorem mapLanes_kept {s : State} {f : Lane → Lane} (h : ∀ (x : Lane) (l : LaneId), x.Kept l (f x)) :
    s.LanesKept { s with lanes := s.lanes.map f } := fun l => by
  have : State.lane { s with lanes := s.lanes.map f } l = f (s.lane l) := by simp [State.lane]
  rw [this]
  exact h _ l

theorem raiseCount_kept (s : State) (l : LaneId) (n : Nat) : s.LanesKept (s.raiseCount l n) := by
  have set := setLane_kept (laneRaiseCount_kept (s.lane l) l n)
  unfold State.raiseCount
  dsimp only
  split
  · exact (lanesKept_of_lanes rfl).after set
  · exact set

theorem respond_kept (s : State) (c : ResultCode) (b : ReplyBody) : s.LanesKept (s.respond c b) := by
  unfold State.respond
  split
  · dsimp only
    split
    · exact lanesKept_of_lanes rfl
    · exact (lanesKept_of_lanes rfl).after (raiseCount_kept s _ _)
  · exact lanesKept_of_lanes rfl

theorem answer_kept (s : State) (c : ResultCode) : s.LanesKept (s.answer c) :=
  respond_kept s c .empty

theorem place_kept (s : State) (op : RowOp) : s.LanesKept (s.place op) :=
  lanesKept_of_lanes (place_lanes s op)

theorem requestCipher_kept (s : State) (r : CipherRequest) : s.LanesKept (s.requestCipher r) :=
  lanesKept_of_lanes rfl

theorem consultLocks_kept (s : State) (op : RecordOp) : s.LanesKept (s.consultLocks op) := by
  unfold State.consultLocks
  split
  · exact place_kept s _
  · split
    · exact answer_kept s _
    · split
      · exact lanesKept_of_lanes rfl
      · exact place_kept s _

theorem settleMinute_kept (s : State) : s.LanesKept s.settleMinute := by
  unfold State.settleMinute
  split
  · exact lanesKept_of_lanes (minuteStep_lanes s)
  · exact lanesKept_of_lanes rfl

theorem settleTick_kept (s : State) : s.LanesKept s.settleTick :=
  (settleMinute_kept _).after (mapLanes_kept laneExpire_kept)

theorem beginExchange_kept (s : State) (l : LaneId) (h : Header) : s.LanesKept (s.beginExchange l h) :=
  (lanesKept_of_lanes rfl).after (updateLane_kept (s := s) (idleTally_kept _ l 0 (s.lane l).tally))

theorem discardFrame_kept (s : State) : s.LanesKept s.discardFrame :=
  lanesKept_of_lanes (discardFrame_lanes s)

theorem pulse_kept (s : State) : s.LanesKept s.pulse := by
  have ticked := mapLanes_kept (s := s) (f := Lane.tick s.settings.idleLimit) fun x l => laneTick_kept x l _
  unfold State.pulse
  dsimp only
  split
  · exact (lanesKept_of_lanes rfl).after ticked
  · exact ticked

/-! ### Admission -/

theorem supervise_kept {s : State} {owner : State → State} (h : s.LanesKept (owner s)) : s.LanesKept (s.supervise owner) := by
  unfold State.supervise
  split
  · exact h
  · exact answer_kept s _

theorem admitEnquiry_kept {s : State} {l : LaneId} {owner : State → State} (h : s.LanesKept (owner s)) :
    s.LanesKept (s.admitEnquiry l owner) := by
  unfold State.admitEnquiry
  split
  · exact h
  · exact answer_kept s _

theorem admitCollect_kept {s : State} {l : LaneId} {owner : State → State} (h : s.LanesKept (owner s)) :
    s.LanesKept (s.admitCollect l owner) := by
  unfold State.admitCollect
  split
  · exact h
  · exact answer_kept s _

theorem admitResume_kept {s : State} {l : LaneId} {owner : State → State} (h : s.LanesKept (owner s)) :
    s.LanesKept (s.admitResume l owner) := by
  unfold State.admitResume
  split
  · exact h
  · exact answer_kept s _

theorem receiveRecord_kept {α : Type} {s : State} {fields : Option α} {meter : α → MeterNumber} {owner : α → State}
    (h : ∀ f, s.LanesKept (owner f)) : s.LanesKept (s.receiveRecord fields meter owner) := by
  unfold State.receiveRecord
  split
  · exact answer_kept s _
  · split
    · exact h _
    · exact answer_kept s _

theorem takeFrame_kept (s : State) (k : Kind) (l : LaneId) (tag : Tag) {owner : State → State}
    (h : ∀ t : State, t.LanesKept (owner t)) : s.LanesKept (s.takeFrame k l tag owner) := by
  have taken := (beginExchange_kept s.settleTick l (requestHeader k l tag)).after (settleTick_kept s)
  unfold State.takeFrame
  split
  · exact lanesKept_of_lanes rfl
  · split
    · unfold State.route
      split
      · exact (answer_kept _ _).after taken
      · split
        · exact (answer_kept _ _).after taken
        · split
          · exact (h _).after taken
          · exact (answer_kept _ _).after taken
    · exact discardFrame_kept s

theorem takeSupervisor_kept (s : State) (k : Kind) (l : LaneId) (tag : Tag) {owner : State → State}
    (h : ∀ t : State, t.LanesKept (owner t)) : s.LanesKept (s.takeSupervisor k l tag owner) :=
  takeFrame_kept s k l tag fun t => supervise_kept (h t)

/-! ### Each request -/

theorem acceptVend_kept (s : State) (l : LaneId) (tag : Tag) (items : List Item) (ho : (s.lane l).state = .opened)
    (hn : (s.lane l).queue.length < 4) (ht : (s.lane l).holdsTag tag = false) : s.LanesKept (s.acceptVend l tag items) := by
  unfold State.acceptVend
  split
  · exact answer_kept s _
  · split
    · exact respond_kept s _ _
    · split
      · exact respond_kept s _ _
      · exact (respond_kept _ _ _).after (updateLane_kept (s := s) (queued_kept _ l ⟨tag, items⟩ ho hn ht))

theorem vendRequest_kept (l : LaneId) (tag : Tag) (body : List Byte) (s : State) :
    s.LanesKept (State.vendRequest l tag body s) := by
  unfold State.vendRequest
  split
  · exact answer_kept s _
  rename_i hopen
  split
  · exact answer_kept s _
  split
  · exact answer_kept s _
  split
  · exact answer_kept s _
  split
  · exact answer_kept s _
  split
  · exact answer_kept s _
  rename_i hfull
  split
  · exact answer_kept s _
  rename_i htag
  split
  · exact answer_kept s _
  · exact acceptVend_kept s l tag _ (by simp only [not_or, ne_eq, not_not] at hopen; exact hopen.1) (by omega)
      (by simpa using htag)

theorem cancelTag_kept (s : State) (l : LaneId) (tag : Tag) : s.LanesKept (s.cancelTag l tag) := by
  unfold State.cancelTag
  dsimp only
  split
  · exact (answer_kept _ _).after (setLane_kept (s := s) (cancelled_kept _ l _))
  · split <;> exact answer_kept s _

theorem cancelRequest_kept (l : LaneId) (tag : Tag) (body : List Byte) (s : State) :
    s.LanesKept (State.cancelRequest l tag body s) := by
  refine admitEnquiry_kept ?_
  split
  · exact answer_kept s _
  · exact cancelTag_kept s l tag

theorem collectResult_kept (s : State) (l : LaneId) : s.LanesKept (s.collectResult l) := by
  unfold State.collectResult
  dsimp only
  split
  · exact (respond_kept _ _ _).after (setLane_kept (s := s) (collected_kept _ l _ ‹_›))
  · exact answer_kept s _

theorem collectRequest_kept (l : LaneId) (body : List Byte) (s : State) : s.LanesKept (State.collectRequest l body s) := by
  refine admitCollect_kept ?_
  split
  · exact answer_kept s _
  · exact collectResult_kept s l

theorem resumeRequest_kept (l : LaneId) (body : List Byte) (s : State) : s.LanesKept (State.resumeRequest l body s) := by
  refine admitResume_kept ?_
  split
  · exact answer_kept s _
  · unfold State.resumeWith
    split
    · exact (answer_kept _ _).after (updateLane_kept (s := s) (resumed_kept _ l))
    · exact answer_kept s _

theorem laneStatusRequest_kept (l : LaneId) (body : List Byte) (s : State) :
    s.LanesKept (State.laneStatusRequest l body s) := by
  unfold State.laneStatusRequest
  split
  · exact answer_kept s _
  · exact respond_kept s _ _
  · split
    · exact answer_kept s _
    · split
      · exact respond_kept s _ _
      · exact supervise_kept (respond_kept s _ _)

theorem placeCounterRead_kept (s : State) (l : LaneId) (m : MeterNumber) (q : CounterQuery) :
    s.LanesKept (s.placeCounterRead l m q) := by
  unfold State.placeCounterRead
  split
  · exact answer_kept s _
  · split
    · exact answer_kept s _
    · exact place_kept s _

theorem lookupRequest_kept (l : LaneId) (body : List Byte) (s : State) : s.LanesKept (State.lookupRequest l body s) := by
  refine admitEnquiry_kept ?_
  split
  · exact answer_kept s _
  · exact placeCounterRead_kept s l _ _

theorem reprintRequest_kept (l : LaneId) (body : List Byte) (s : State) : s.LanesKept (State.reprintRequest l body s) := by
  refine admitEnquiry_kept ?_
  split
  · exact answer_kept s _
  · exact placeCounterRead_kept s l _ _

theorem quoteRequest_kept (l : LaneId) (body : List Byte) (s : State) : s.LanesKept (State.quoteRequest l body s) := by
  refine admitEnquiry_kept ?_
  split
  · exact answer_kept s _
  · exact placeCounterRead_kept s l _ _

theorem openSupervisorLane_kept (s : State) (id code : Nat) : s.LanesKept (s.openSupervisorLane id code) := by
  unfold State.openSupervisorLane
  split
  · exact answer_kept s _
  · split
    · exact answer_kept s _
    · exact (answer_kept _ _).after (updateLane_kept (s := s) (signOn_kept _ 0 _))

theorem openCounterLane_kept (s : State) (l : LaneId) (id code : Nat) : s.LanesKept (s.openCounterLane l id code) := by
  unfold State.openCounterLane
  split
  · exact answer_kept s _
  · exact (answer_kept _ _).after (updateLane_kept (s := s) (signOn_kept _ l _))

theorem openLaneRequest_kept (body : List Byte) (s : State) : s.LanesKept (State.openLaneRequest body s) := by
  unfold State.openLaneRequest
  split
  · split
    · exact answer_kept s _
    · split
      · exact openSupervisorLane_kept s _ _
      · exact openCounterLane_kept s _ _ _
  · exact answer_kept s _

theorem closeLaneRequest_kept (body : List Byte) (s : State) : s.LanesKept (State.closeLaneRequest body s) := by
  unfold State.closeLaneRequest
  split
  · exact answer_kept s _
  · unfold State.closeLane
    dsimp only
    split
    · exact answer_kept s _
    · split
      · exact answer_kept s _
      · rename_i hq
        exact (respond_kept _ _ _).after (setLane_kept (s := s) (signOff_kept _ _ (by simpa using hq)))

theorem setLaneRequest_kept (body : List Byte) (s : State) : s.LanesKept (State.setLaneRequest body s) := by
  unfold State.setLaneRequest
  split
  · exact answer_kept s _
  · split
    · exact place_kept s _
    · exact answer_kept s _

theorem clearLaneCountRequest_kept (body : List Byte) (s : State) : s.LanesKept (State.clearLaneCountRequest body s) := by
  unfold State.clearLaneCountRequest
  split
  · exact answer_kept s _
  · exact (respond_kept _ _ _).after (updateLane_kept (s := s) (clearCount_kept _ _))

theorem purgeRowRequest_kept (body : List Byte) (s : State) : s.LanesKept (State.purgeRowRequest body s) := by
  unfold State.purgeRowRequest
  split
  · exact answer_kept s _
  · exact place_kept s _

theorem setTariffRequest_kept (body : List Byte) (s : State) : s.LanesKept (State.setTariffRequest body s) := by
  unfold State.setTariffRequest
  split
  · exact respond_kept s _ _
  · exact (place_kept _ _).after (lanesKept_of_lanes rfl)

theorem clearTariffRequest_kept (body : List Byte) (s : State) : s.LanesKept (State.clearTariffRequest body s) := by
  unfold State.clearTariffRequest
  split
  · exact answer_kept s _
  · split
    · exact (place_kept _ _).after (lanesKept_of_lanes rfl)
    · exact (respond_kept _ _ _).after (lanesKept_of_lanes rfl)

theorem readTariffRequest_kept (body : List Byte) (s : State) : s.LanesKept (State.readTariffRequest body s) := by
  unfold State.readTariffRequest
  split
  · exact answer_kept s _
  · exact respond_kept s _ _

theorem loadKeyRequest_kept (body : List Byte) (s : State) : s.LanesKept (State.loadKeyRequest body s) := by
  unfold State.loadKeyRequest
  split
  · exact answer_kept s _
  · exact requestCipher_kept s _

theorem dropKeyRequest_kept (body : List Byte) (s : State) : s.LanesKept (State.dropKeyRequest body s) := by
  unfold State.dropKeyRequest
  split
  · exact answer_kept s _
  · split
    · exact respond_kept s _ _
    · exact answer_kept s _
    · split
      · exact answer_kept s _
      · exact (place_kept _ _).after (lanesKept_of_lanes rfl)

theorem readKeysRequest_kept (body : List Byte) (s : State) : s.LanesKept (State.readKeysRequest body s) := by
  unfold State.readKeysRequest
  split
  · exact answer_kept s _
  · exact respond_kept s _ _

theorem enableRequest_kept (body : List Byte) (s : State) : s.LanesKept (State.enableRequest body s) := by
  unfold State.enableRequest
  split
  · exact answer_kept s _
  · split
    · exact (respond_kept _ _ _).after (lanesKept_of_lanes rfl)
    · exact respond_kept s _ _

theorem grantRequest_kept (body : List Byte) (s : State) : s.LanesKept (State.grantRequest body s) := by
  unfold State.grantRequest
  split
  · exact answer_kept s _
  · split
    · exact answer_kept s _
    · split
      · exact answer_kept s _
      · exact requestCipher_kept s _

theorem closeDayRequest_kept (body : List Byte) (s : State) : s.LanesKept (State.closeDayRequest body s) := by
  unfold State.closeDayRequest
  split
  · exact answer_kept s _
  · split
    · exact answer_kept s _
    · exact place_kept s _

theorem closeMonthRequest_kept (body : List Byte) (s : State) : s.LanesKept (State.closeMonthRequest body s) := by
  unfold State.closeMonthRequest
  split
  · exact answer_kept s _
  · split
    · exact answer_kept s _
    · exact place_kept s _

theorem setAlarmRequest_kept (body : List Byte) (s : State) : s.LanesKept (State.setAlarmRequest body s) := by
  unfold State.setAlarmRequest
  split
  · exact answer_kept s _
  · exact place_kept s _

theorem clearEventsRequest_kept (body : List Byte) (s : State) : s.LanesKept (State.clearEventsRequest body s) := by
  unfold State.clearEventsRequest
  split
  · exact answer_kept s _
  · exact (respond_kept _ _ _).after (lanesKept_of_lanes rfl)

theorem readStatusRequest_kept (body : List Byte) (s : State) : s.LanesKept (State.readStatusRequest body s) := by
  unfold State.readStatusRequest
  split
  · exact answer_kept s _
  · exact respond_kept s _ _

theorem setOfficeRequest_kept (body : List Byte) (s : State) : s.LanesKept (State.setOfficeRequest body s) := by
  unfold State.setOfficeRequest
  split
  · exact answer_kept s _
  · split
    · exact answer_kept s _
    · exact place_kept s _

/-- Every request command keeps the lanes lawful and the in-flight lists. -/
theorem exec_lanesKept (c : Instr) (s t : State) (hc : requestParts c ≠ none) (e : exec c s = .next t) : s.LanesKept t := by
  cases c
  case vend lane tag body => exact Host.Outcome.next.inj e ▸ takeFrame_kept s _ lane tag (vendRequest_kept lane tag body)
  case cancel lane tag body => exact Host.Outcome.next.inj e ▸ takeFrame_kept s _ lane tag (cancelRequest_kept lane tag body)
  case collect lane tag body => exact Host.Outcome.next.inj e ▸ takeFrame_kept s _ lane tag (collectRequest_kept lane body)
  case resume lane tag body => exact Host.Outcome.next.inj e ▸ takeFrame_kept s _ lane tag (resumeRequest_kept lane body)
  case laneStatus lane tag body => exact Host.Outcome.next.inj e ▸ takeFrame_kept s _ lane tag (laneStatusRequest_kept lane body)
  case lookup lane tag body => exact Host.Outcome.next.inj e ▸ takeFrame_kept s _ lane tag (lookupRequest_kept lane body)
  case reprint lane tag body => exact Host.Outcome.next.inj e ▸ takeFrame_kept s _ lane tag (reprintRequest_kept lane body)
  case quote lane tag body => exact Host.Outcome.next.inj e ▸ takeFrame_kept s _ lane tag (quoteRequest_kept lane body)
  case openLane lane tag body => exact Host.Outcome.next.inj e ▸ takeFrame_kept s _ lane tag (openLaneRequest_kept body)
  case readStatus lane tag body => exact Host.Outcome.next.inj e ▸ takeFrame_kept s _ lane tag (readStatusRequest_kept body)
  case closeLane lane tag body => exact Host.Outcome.next.inj e ▸ takeSupervisor_kept s _ lane tag (closeLaneRequest_kept body)
  case setLane lane tag body => exact Host.Outcome.next.inj e ▸ takeSupervisor_kept s _ lane tag (setLaneRequest_kept body)
  case clearLaneCount lane tag body => exact Host.Outcome.next.inj e ▸ takeSupervisor_kept s _ lane tag (clearLaneCountRequest_kept body)
  case enrol lane tag body => exact Host.Outcome.next.inj e ▸ takeSupervisor_kept s _ lane tag (fun t => receiveRecord_kept fun _ => place_kept t _)
  case amend lane tag body => exact Host.Outcome.next.inj e ▸ takeSupervisor_kept s _ lane tag (fun t => receiveRecord_kept fun _ => consultLocks_kept t _)
  case retire lane tag body => exact Host.Outcome.next.inj e ▸ takeSupervisor_kept s _ lane tag (fun t => receiveRecord_kept fun _ => consultLocks_kept t _)
  case reinstate lane tag body => exact Host.Outcome.next.inj e ▸ takeSupervisor_kept s _ lane tag (fun t => receiveRecord_kept fun _ => consultLocks_kept t _)
  case purge lane tag body => exact Host.Outcome.next.inj e ▸ takeSupervisor_kept s _ lane tag (fun t => receiveRecord_kept fun _ => consultLocks_kept t _)
  case purgeRow lane tag body => exact Host.Outcome.next.inj e ▸ takeSupervisor_kept s _ lane tag (purgeRowRequest_kept body)
  case restore lane tag body => exact Host.Outcome.next.inj e ▸ takeSupervisor_kept s _ lane tag (fun t => receiveRecord_kept fun _ => requestCipher_kept t _)
  case setTariff lane tag body => exact Host.Outcome.next.inj e ▸ takeSupervisor_kept s _ lane tag (setTariffRequest_kept body)
  case clearPendingTariff lane tag body => exact Host.Outcome.next.inj e ▸ takeSupervisor_kept s _ lane tag (clearTariffRequest_kept body)
  case readTariff lane tag body => exact Host.Outcome.next.inj e ▸ takeSupervisor_kept s _ lane tag (readTariffRequest_kept body)
  case loadKey lane tag body => exact Host.Outcome.next.inj e ▸ takeSupervisor_kept s _ lane tag (loadKeyRequest_kept body)
  case dropKey lane tag body => exact Host.Outcome.next.inj e ▸ takeSupervisor_kept s _ lane tag (dropKeyRequest_kept body)
  case readKeys lane tag body => exact Host.Outcome.next.inj e ▸ takeSupervisor_kept s _ lane tag (readKeysRequest_kept body)
  case enableEngineB lane tag body => exact Host.Outcome.next.inj e ▸ takeSupervisor_kept s _ lane tag (enableRequest_kept body)
  case grant lane tag body => exact Host.Outcome.next.inj e ▸ takeSupervisor_kept s _ lane tag (grantRequest_kept body)
  case closeDay lane tag body => exact Host.Outcome.next.inj e ▸ takeSupervisor_kept s _ lane tag (closeDayRequest_kept body)
  case closeMonth lane tag body => exact Host.Outcome.next.inj e ▸ takeSupervisor_kept s _ lane tag (closeMonthRequest_kept body)
  case setMemoryAlarm lane tag body => exact Host.Outcome.next.inj e ▸ takeSupervisor_kept s _ lane tag (setAlarmRequest_kept body)
  case clearEvents lane tag body => exact Host.Outcome.next.inj e ▸ takeSupervisor_kept s _ lane tag (clearEventsRequest_kept body)
  case setOffice lane tag body => exact Host.Outcome.next.inj e ▸ takeSupervisor_kept s _ lane tag (setOfficeRequest_kept body)
  all_goals exact absurd rfl hc

end Sys2Proof.Machine
end

section
/-! Proofs: what one step of the part can do, said once for every command. A request goes by `State.Requested`, a completion
of the store's operation in progress by `State.completion`; every law of the state is proved by these cases. -/
namespace Sys2Proof.Machine

open Sys2Proof

/-- What the completion of the operation in progress makes of the state, the operation's read having found a decay (R148). -/
def State.completion (s : State) (d : Decay) : RowOp → State
  | .itemRead e m => s.itemRead e m d
  | .counterRead lane q => s.counterRead lane q d
  | .record op => s.recordDone op s.takenRow d
  | .scrub id => s.scrubbed id d
  | .commitMarker e m => s.markerWritten e m
  | .commitMeter e m => s.meterRowWritten e m
  | .commitClear e => s.commitCleared e
  | .office (.grant amount serial) => s.grantWritten amount serial
  | .office .closeDay => s.dayClosed
  | .office .closeMonth => s.monthClosed
  | .office .dayAge => s.officeWritten.finishOp
  | .office (.commit e m) => s.officeRowWritten e m
  | .office (.rollForward e m) => s.rollOfficeWritten e m
  | .office (.setOffice st) => s.settingsWritten st
  | .office (.setAlarm exponent count) => s.alarmWritten exponent count
  | .setTariff row bank => s.tariffWritten row bank
  | .clearTariff row => s.tariffCleared row
  | .loadKey slot k => s.keyWritten slot k
  | .dropKey slot g => s.keyDropped slot g
  | .setLane named given namesEngine => s.laneSettingsWritten named given namesEngine
  | .startOffice id => s.officeRowRead id d
  | .startCommit e => s.commitRowRead e d
  | .rollMeter e m => s.rollMeterWritten e m
  | .rollClear e => s.rollCleared e
  | .scan n => s.rowScanned n d

/-- A waiting claim leaves the list (R110). -/
def State.unqueued (s : State) (c : EngineId × MeterNumber) : State :=
  { s with locks := { s.locks with waiting := s.locks.waiting.erase c } }

/-- The scrubber claims a meter (R111). -/
def State.scrubberClaim (s : State) (m : MeterNumber) : State :=
  { s with locks := { s.locks with scrubber := some m } }

/-- The waiting supervisor request leaves its place (R15). -/
def State.supervisorFreed (s : State) : State :=
  { s with locks := { s.locks with supervisor := none } }

/-- Everything one command can make of a state. -/
inductive State.Stepped (s : State) : State → Prop
  /-- An event that is not due (log entry 1). -/
  | idle : s.Stepped s
  | requested (t : State) (g : s.Requested t) (k : s.LanesKept t) : s.Stepped t
  /-- A frame that fails check 1 or 2 of R176. -/
  | unknownLane (h : Header) (code : ResultCode) (hi : s.exchange = .idle) : s.Stepped (s.refuseUnknownLane h code)
  /-- The whole reply is read (R174). -/
  | replyRead (r : Reply) (hr : s.exchange = .replyReady r) : s.Stepped { s with exchange := .idle }
  | ticked : s.Stepped s.settleTick.pulse
  | expired (lane : LaneId) : s.Stepped (s.updateLane lane Lane.expire)
  | minute : s.Stepped s.settleMinute
  /-- An input of the supply monitor takes a level (R163). -/
  | supplied (mainsOk pwrWarn : Bool) : s.Stepped { s with mainsOk := mainsOk, pwrWarn := pwrWarn }.deriveSupply
  /-- A reset finds record memory with the write in progress wholly old or wholly new (R147, R165). -/
  | restarted (m : RecordMemory) (hm : m = s.memory ∨ ∃ d, m = s.landedMemory d) : s.Stepped (s.restart m)
  | resetAsserted : s.Stepped { s with resetHeld := true }
  | dispatched (e : EngineId) (lane : LaneId) (h : s.eligible e lane = true) : s.Stepped (s.dispatchTo e lane)
  | claimGranted (c : EngineId × MeterNumber) (hc : c ∈ s.locks.waiting) (hf : s.locks.free c.2 = true) :
    s.Stepped ((s.unqueued c).grantClaim c.1 c.2)
  | supervisorRetaken (op : RecordOp) (ho : s.locks.supervisor = some op) : s.Stepped (s.supervisorFreed.consultLocks op)
  | monthAdvanced : s.Stepped { s with tariff := s.tariff.takeAdvance }
  | rowPassed (h : s.scrubberRuns = true) : s.Stepped s.advanceScrubber
  | rowClaimed (n : Nat) (m : MeterNumber) (h : s.scrubberRuns = true) (hm : s.locks.heldByEngine m = false) :
    s.Stepped ((s.scrubberClaim m).placeScrub (.meter n))
  | rowVisited (id : RowId) (h : s.scrubberRuns = true) : s.Stepped (s.placeScrub id)
  | tokenComputed (e : EngineId) (m : MeterNumber) (p : PlannedToken) (t : Token)
    (hb : s.cipher.busy = some (.token e m p)) : s.Stepped (s.completeCipher.receiveToken e t)
  | grantVerified (f : GrantFields) (hb : s.cipher.busy = some (.grant f)) : s.Stepped (s.grantVerified f)
  | loadKeyVerified (f : LoadKeyFields) (hb : s.cipher.busy = some (.loadKey f)) : s.Stepped (s.loadKeyVerified f)
  | restoreVerified (f : RestoreFields) (hb : s.cipher.busy = some (.restore f)) : s.Stepped (s.restoreVerified f)
  | completed (op : RowOp) (d : Decay) (hc : s.current = some op) : s.Stepped (s.completion d op)

/-! ### Every command's step is one of these -/

/-- A bad frame is refused by the link, or does what a frame does (R174 to R176). -/
theorem takeBadFrame_stepped (s : State) (bytes : List Byte) : s.Stepped (s.takeBadFrame bytes) := by
  unfold State.takeBadFrame
  split
  · exact .idle
  · split
    · split
      · exact .idle
      · exact .unknownLane _ _ ‹_›
      · exact .unknownLane _ _ ‹_›
      · exact .requested _ (.refused _ _ _ _ _ ‹_› rfl)
          ((answer_kept _ _).after ((beginExchange_kept _ _ _).after (settleTick_kept s)))
      · exact .idle
    · split
      · exact .requested _ .overlapped (discardFrame_kept s)
      · exact .idle

theorem takeDiscarded_stepped (s : State) (bytes : List Byte) : s.Stepped (s.takeDiscarded bytes) := by
  unfold State.takeDiscarded
  split
  · exact .idle
  · exact .requested _ .overlapped (discardFrame_kept s)

theorem readReply_stepped (s : State) (count : Nat) : s.Stepped (s.readReply count) := by
  unfold State.readReply
  split
  · split
    · exact .replyRead _ ‹_›
    · exact .idle
  · exact .idle

/-- The lane that the dispatcher chooses for an engine is eligible for it (R105, R106). -/
theorem eligible_of_choose {s : State} {e : EngineId} {lane : LaneId} (h : s.choose e = some lane) :
    s.eligible e lane = true := by
  obtain ⟨p, -, hp⟩ := List.exists_of_findSome?_eq_some h
  have := List.find?_some hp
  simp only [Bool.and_eq_true] at this
  exact this.1

theorem dispatch_stepped (s : State) : s.Stepped s.dispatch := by
  unfold State.dispatch
  split
  · exact .dispatched _ _ (eligible_of_choose ‹_›)
  · split
    · exact .dispatched _ _ (eligible_of_choose ‹_›)
    · exact .idle

theorem retakeClaim_stepped (s : State) : s.Stepped s.retakeClaim := by
  unfold State.retakeClaim
  split
  · rename_i c hc
    have hf := List.find?_some hc
    exact .claimGranted c (List.mem_of_find?_eq_some hc) hf
  · exact .idle

theorem retakeSupervisor_stepped (s : State) : s.Stepped s.retakeSupervisor := by
  unfold State.retakeSupervisor
  split
  · split
    · exact .idle
    · exact .supervisorRetaken _ ‹_›
  · exact .idle

theorem visitRow_stepped (s : State) (h : s.scrubberRuns = true) : s.Stepped s.visitRow := by
  unfold State.visitRow
  split
  · split
    · unfold State.scrubMeter
      split
      · split
        · exact .rowPassed h
        · rename_i hm
          exact .rowClaimed _ _ h (by simpa using hm)
      · exact .rowPassed h
    · exact .rowPassed h
  · exact .rowVisited _ h

theorem tokenComputed_stepped (s : State) (e : EngineId) (m : MeterNumber) (p : PlannedToken)
    (hb : s.cipher.busy = some (.token e m p)) : s.Stepped (s.tokenComputed e m p) := by
  unfold State.tokenComputed
  split
  · exact .tokenComputed e m p _ hb
  · exact .idle

/-- Every command's step is one of the cases of `State.Stepped`. -/
theorem exec_stepped (c : Instr) (s t : State) (e : exec c s = .next t) : s.Stepped t := by
  by_cases hc : requestParts c = none
  · cases c
    case badFrame bytes => exact Host.Outcome.next.inj e ▸ takeBadFrame_stepped s bytes
    case frameDiscarded bytes => exact Host.Outcome.next.inj e ▸ takeDiscarded_stepped s bytes
    case replyRead count => exact Host.Outcome.next.inj e ▸ readReply_stepped s count
    case tick => exact Host.Outcome.next.inj e ▸ .ticked
    case idleExpiry lane => exact Host.Outcome.next.inj e ▸ .expired lane
    case dayAgeMinute => exact Host.Outcome.next.inj e ▸ .minute
    case mainsOkChange high => exact Host.Outcome.next.inj e ▸ .supplied high s.pwrWarn
    case pwrWarnChange high => exact Host.Outcome.next.inj e ▸ .supplied s.mainsOk high
    case reset landed =>
      rw [← Host.Outcome.next.inj e]
      cases landed with
      | none => exact .restarted _ (.inl rfl)
      | some d => exact .restarted _ (.inr ⟨d, rfl⟩)
    case dispatch => exact Host.Outcome.next.inj e ▸ dispatch_stepped s
    case claimRetaken => exact Host.Outcome.next.inj e ▸ retakeClaim_stepped s
    case waitingSupervisorRetaken => exact Host.Outcome.next.inj e ▸ retakeSupervisor_stepped s
    case monthAdvance => exact Host.Outcome.next.inj e ▸ .monthAdvanced
    case resetAsserted => exact Host.Outcome.next.inj e ▸ .resetAsserted
    case scrubberStep =>
      rw [← Host.Outcome.next.inj e]
      split
      · exact visitRow_stepped s ‹_›
      · exact .idle
    case tokenComputed =>
      rw [← Host.Outcome.next.inj e]
      split
      · exact tokenComputed_stepped s _ _ _ ‹_›
      · exact .idle
    case grantVerified => rw [← Host.Outcome.next.inj e]; split; exacts [.grantVerified _ ‹_›, .idle]
    case loadKeyVerified => rw [← Host.Outcome.next.inj e]; split; exacts [.loadKeyVerified _ ‹_›, .idle]
    case restoreVerified => rw [← Host.Outcome.next.inj e]; split; exacts [.restoreVerified _ ‹_›, .idle]
    case itemReadDone d => rw [← Host.Outcome.next.inj e]; split; exacts [.completed (.itemRead _ _) d ‹_›, .idle]
    case commitMarkerWritten => rw [← Host.Outcome.next.inj e]; split; exacts [.completed (.commitMarker _ _) {} ‹_›, .idle]
    case commitMeterRowWritten =>
      rw [← Host.Outcome.next.inj e]; split; exacts [.completed (.commitMeter _ _) {} ‹_›, .idle]
    case commitOfficeRowWritten =>
      rw [← Host.Outcome.next.inj e]; split; exacts [.completed (.office (.commit _ _)) {} ‹_›, .idle]
    case commitCleared => rw [← Host.Outcome.next.inj e]; split; exacts [.completed (.commitClear _) {} ‹_›, .idle]
    case recordWriteDone d => rw [← Host.Outcome.next.inj e]; split; exacts [.completed (.record _) d ‹_›, .idle]
    case counterReadDone d => rw [← Host.Outcome.next.inj e]; split; exacts [.completed (.counterRead _ _) d ‹_›, .idle]
    case setTariffWriteDone => rw [← Host.Outcome.next.inj e]; split; exacts [.completed (.setTariff _ _) {} ‹_›, .idle]
    case clearTariffWriteDone => rw [← Host.Outcome.next.inj e]; split; exacts [.completed (.clearTariff _) {} ‹_›, .idle]
    case keyWriteDone => rw [← Host.Outcome.next.inj e]; split; exacts [.completed (.loadKey _ _) {} ‹_›, .idle]
    case dropKeyWriteDone => rw [← Host.Outcome.next.inj e]; split; exacts [.completed (.dropKey _ _) {} ‹_›, .idle]
    case laneSettingsWriteDone => rw [← Host.Outcome.next.inj e]; split; exacts [.completed (.setLane _ _ _) {} ‹_›, .idle]
    case grantWriteDone => rw [← Host.Outcome.next.inj e]; split; exacts [.completed (.office (.grant _ _)) {} ‹_›, .idle]
    case closeDayWriteDone => rw [← Host.Outcome.next.inj e]; split; exacts [.completed (.office .closeDay) {} ‹_›, .idle]
    case closeMonthWriteDone => rw [← Host.Outcome.next.inj e]; split; exacts [.completed (.office .closeMonth) {} ‹_›, .idle]
    case dayAgeWriteDone => rw [← Host.Outcome.next.inj e]; split; exacts [.completed (.office .dayAge) {} ‹_›, .idle]
    case setOfficeWriteDone =>
      rw [← Host.Outcome.next.inj e]; split; exacts [.completed (.office (.setOffice _)) {} ‹_›, .idle]
    case memoryAlarmWriteDone =>
      rw [← Host.Outcome.next.inj e]; split; exacts [.completed (.office (.setAlarm _ _)) {} ‹_›, .idle]
    case scrubberReadDone d => rw [← Host.Outcome.next.inj e]; split; exacts [.completed (.scrub _) d ‹_›, .idle]
    case startupOfficeRowRead d => rw [← Host.Outcome.next.inj e]; split; exacts [.completed (.startOffice _) d ‹_›, .idle]
    case commitRowRead d => rw [← Host.Outcome.next.inj e]; split; exacts [.completed (.startCommit _) d ‹_›, .idle]
    case scanRowRead d => rw [← Host.Outcome.next.inj e]; split; exacts [.completed (.scan _) d ‹_›, .idle]
    case rollForwardWriteDone =>
      rw [← Host.Outcome.next.inj e]
      split
      · exact .completed (.rollMeter _ _) {} ‹_›
      · exact .completed (.office (.rollForward _ _)) {} ‹_›
      · exact .completed (.rollClear _) {} ‹_›
      · exact .idle
    all_goals cases hc
  · exact .requested t (exec_requested c s t hc e) (exec_lanesKept c s t hc e)

end Sys2Proof.Machine
end

section
/-! Proofs: what every step keeps of record memory's form, the store's tables, the supply law and the lock holders (R9 to R12,
R102, R104, R109, R145, R162). -/
namespace Sys2Proof.Machine

open Sys2Proof

/-! ### The store's tables stay in rising order -/

/-- The law of the tables reads the four tables alone. -/
theorem tables_congr {t u : Store} (h : t.Lawful) (h1 : u.conditions = t.conditions) (h2 : u.index = t.index)
    (h3 : u.freeList = t.freeList) (h4 : u.damaged = t.damaged) : u.Lawful := by
  unfold Store.Lawful at h ⊢
  rw [h1, h2, h3, h4]
  exact h

theorem setCondition_tables {t : Store} (n : Nat) (c : RowCondition) (h : t.Lawful) : (t.setCondition n c).Lawful := by
  obtain ⟨hc, hi, hf, hd⟩ := h
  refine ⟨?_, hi, hf, hd⟩
  show sparseRising (if c = .undetermined then sparseErase t.conditions n else sparseSet t.conditions n c)
  split
  · exact sparseErase_rising _ _ hc
  · exact sparseSet_rising _ _ _ hc

theorem indexMeter_tables {t : Store} (m : MeterNumber) (n : Nat) (h : t.Lawful) : (t.indexMeter m n).Lawful := by
  obtain ⟨hc, hi, hf, hd⟩ := h
  exact ⟨hc, sparseSet_rising _ _ _ hi, hf, hd⟩

theorem unindexRow_tables {t : Store} (n : Nat) (h : t.Lawful) : (t.unindexRow n).Lawful := by
  obtain ⟨hc, hi, hf, hd⟩ := h
  exact ⟨hc, hi.sublist (List.Sublist.map _ List.filter_sublist), hf, hd⟩

theorem undamage_tables {t : Store} (n : Nat) (h : t.Lawful) : (t.undamage n).Lawful := by
  obtain ⟨hc, hi, hf, hd⟩ := h
  exact ⟨hc, hi, hf, hd.sublist List.filter_sublist⟩

/-- A row joins the free list at its place. -/
theorem free_tables {t : Store} (n : Nat) (h : t.Lawful) :
    ({ t with freeList := insertRising n t.freeList } : Store).Lawful := by
  obtain ⟨hc, hi, hf, hd⟩ := h
  exact ⟨hc, hi, insertRising_rising n _ hf, hd⟩

/-- A row joins the damaged set at its place. -/
theorem damage_tables {t : Store} (n : Nat) (h : t.Lawful) :
    ({ t with damaged := insertRising n t.damaged } : Store).Lawful := by
  obtain ⟨hc, hi, hf, hd⟩ := h
  exact ⟨hc, hi, hf, insertRising_rising n _ hd⟩

theorem release_tables {t : Store} (n : Nat) (h : t.Lawful) : (t.release n).Lawful :=
  free_tables n (setCondition_tables n .free h)

theorem listOrphan_tables {t : Store} (n : Nat) (h : t.Lawful) : (t.listOrphan n).Lawful := by
  unfold Store.listOrphan
  split
  · exact h
  · split <;> exact tables_congr h rfl rfl rfl rfl

theorem unlistOrphan_tables {t : Store} (n : Nat) (h : t.Lawful) : (t.unlistOrphan n).Lawful := by
  unfold Store.unlistOrphan
  dsimp only
  split
  · split <;> exact tables_congr h rfl rfl rfl rfl
  · exact tables_congr h rfl rfl rfl rfl

theorem commitRow_tables {t : Store} (n : Nat) (m : MeterNumber) (h : t.Lawful) : (t.commitRow n m).Lawful := by
  unfold Store.commitRow
  split
  · exact undamage_tables n h
  · split
    · exact unlistOrphan_tables n (indexMeter_tables m n (setCondition_tables n _ h))
    · exact h
  · exact h

theorem takeOp_tables {s : State} (op : RowOp) (h : s.store.Lawful) : (s.takeOp op).store.Lawful := by
  have allocate : ∀ o, (s.allocated op o).store.Lawful := fun o => by
    cases o with
    | none => exact tables_congr h rfl rfl rfl rfl
    | some n =>
      obtain ⟨hc, hi, hf, hd⟩ := setCondition_tables n .allocated h
      exact ⟨hc, hi, hf.sublist List.filter_sublist, hd⟩
  unfold State.takeOp
  dsimp only
  split
  · exact tables_congr h rfl rfl rfl rfl
  · rename_i f
    have ha := allocate (s.store.allocation f.meter none)
    rw [← takeOp_enrol] at ha
    exact ha
  · rename_i f
    have ha := allocate (s.store.allocation f.image.meter f.target)
    rw [← takeOp_restore] at ha
    exact ha
  · exact tables_congr h rfl rfl rfl rfl

/-! ### The engines fit the supply -/

/-- The part of the supply law that concerns the engines (R102, R104). -/
def EnginesFit (supply : Supply) (x : Pair Engine) : Prop :=
  x.a ≠ .disabled ∧ x.a ≠ .parked ∧ (x.b = .idle → supply = .mains) ∧ (x.b = .parked → supply ≠ .mains)

theorem supplyLawful_iff (s : State) :
    s.SupplyLawful ↔ s.supply = supplyOf s.mainsOk s.pwrWarn ∧ EnginesFit s.supply s.engines :=
  Iff.rfl

theorem enginesFit_busy {p : Supply} {x : Pair Engine} (e : EngineId) (b : BusyEngine) (h : EnginesFit p x) :
    EnginesFit p (x.set e (.busy b)) := by
  obtain ⟨h1, h2, h3, h4⟩ := h
  cases e
  · exact ⟨nofun, nofun, h3, h4⟩
  · exact ⟨h1, h2, nofun, nofun⟩

theorem enginesFit_resting {p : Supply} {x : Pair Engine} (e : EngineId) (h : EnginesFit p x) :
    EnginesFit p (x.set e (restingEngine e p)) := by
  obtain ⟨h1, h2, h3, h4⟩ := h
  cases e
  · exact ⟨nofun, nofun, h3, h4⟩
  · refine ⟨h1, h2, ?_, ?_⟩ <;> simp [Pair.set, restingEngine]

/-- Engine B at a change of the supply state (R104). -/
theorem enginesFit_follow {x : Pair Engine} (p q : Supply) (h : EnginesFit p x) :
    EnginesFit q { x with b := x.b.follow q } := by
  obtain ⟨h1, h2, -, -⟩ := h
  refine ⟨h1, h2, ?_, ?_⟩ <;> cases x.b <;> simp [Engine.follow, restingEngine]

/-! ### What an operation keeps -/

/-- From a state to another the four laws are kept. -/
structure State.Keeps (s t : State) : Prop where
  memory : s.memory.wf → t.memory.wf
  tables : s.store.Lawful → t.store.Lawful
  supply : s.SupplyLawful → t.SupplyLawful
  locks : s.locks.Distinct → t.locks.Distinct

theorem State.Keeps.refl (s : State) : s.Keeps s := ⟨id, id, id, id⟩

theorem State.Keeps.trans {s t u : State} (h : s.Keeps t) (g : t.Keeps u) : s.Keeps u :=
  ⟨g.memory ∘ h.memory, g.tables ∘ h.tables, g.supply ∘ h.supply, g.locks ∘ h.locks⟩

/-- The last operation first, so that it names the state before it. -/
theorem State.Keeps.after {s t u : State} (g : t.Keeps u) (h : s.Keeps t) : s.Keeps u := h.trans g

/-- The inputs and the supply state are as they were. -/
abbrev State.SameSupply (s t : State) : Prop :=
  t.mainsOk = s.mainsOk ∧ t.pwrWarn = s.pwrWarn ∧ t.supply = s.supply

/-- An operation on record memory and the store alone. -/
theorem keeps_of_store {s t : State} (hm : s.memory.wf → t.memory.wf) (ht : s.store.Lawful → t.store.Lawful)
    (hs : s.SameSupply t) (he : t.engines = s.engines) (hl : t.locks = s.locks) : s.Keeps t := by
  obtain ⟨h1, h2, h3⟩ := hs
  refine ⟨hm, ht, fun h => ?_, fun h => hl ▸ h⟩
  rw [supplyLawful_iff] at h ⊢
  rw [h1, h2, h3, he]
  exact h

/-- An operation on other parts. -/
theorem keeps_of_same {s t : State} (hm : t.memory = s.memory) (ht : t.store = s.store) (hs : s.SameSupply t)
    (he : t.engines = s.engines) (hl : t.locks = s.locks) : s.Keeps t :=
  keeps_of_store (fun h => hm ▸ h) (fun h => ht ▸ h) hs he hl

/-- An operation on an engine, among other parts. -/
theorem keeps_of_engines {s t : State} (hm : t.memory = s.memory) (ht : t.store = s.store) (hs : s.SameSupply t)
    (he : EnginesFit s.supply s.engines → EnginesFit s.supply t.engines) (hl : t.locks = s.locks) : s.Keeps t := by
  obtain ⟨h1, h2, h3⟩ := hs
  refine ⟨fun h => hm ▸ h, fun h => ht ▸ h, fun h => ?_, fun h => hl ▸ h⟩
  rw [supplyLawful_iff] at h ⊢
  rw [h1, h2, h3]
  exact ⟨h.1, he h.2⟩

/-- An operation on the lock table. -/
theorem keeps_of_locks {s t : State} (hm : t.memory = s.memory) (ht : t.store = s.store) (hs : s.SameSupply t)
    (he : t.engines = s.engines) (hl : s.locks.Distinct → t.locks.Distinct) : s.Keeps t :=
  ⟨fun h => hm ▸ h, fun h => ht ▸ h, (keeps_of_same (t := { t with locks := s.locks }) hm ht hs he rfl).supply, hl⟩

/-! ### Replies, frames and timers -/

theorem respond_keeps (s : State) (c : ResultCode) (b : ReplyBody) : s.Keeps (s.respond c b) :=
  keeps_of_same (by simp) (by simp) ⟨by simp, by simp, by simp⟩ (by simp) (by simp)

theorem answer_keeps (s : State) (c : ResultCode) : s.Keeps (s.answer c) :=
  respond_keeps s c .empty

theorem place_keeps (s : State) (op : RowOp) : s.Keeps (s.place op) := by
  refine keeps_of_store (by simp) (fun h => ?_) ⟨by simp, by simp, by simp⟩ (by simp) (by simp)
  unfold State.place
  split
  · exact takeOp_tables op h
  · exact tables_congr h rfl rfl rfl rfl

theorem finishOp_keeps (s : State) : s.Keeps s.finishOp := by
  refine keeps_of_store (by simp) (fun h => ?_) ⟨by simp, by simp, by simp⟩ (by simp) (by simp)
  unfold State.finishOp
  split
  · exact tables_congr h rfl rfl rfl rfl
  · exact takeOp_tables _ (tables_congr h rfl rfl rfl rfl)

theorem minuteStep_keeps (s : State) : s.Keeps s.minuteStep := by
  unfold State.minuteStep
  dsimp only
  repeat' split
  all_goals first
    | exact .after (place_keeps _ _) (keeps_of_same rfl rfl ⟨rfl, rfl, rfl⟩ rfl rfl)
    | exact keeps_of_same rfl rfl ⟨rfl, rfl, rfl⟩ rfl rfl

theorem settleMinute_keeps (s : State) : s.Keeps s.settleMinute := by
  unfold State.settleMinute
  split
  · exact minuteStep_keeps s
  · exact .refl s

theorem settleTick_keeps (s : State) : s.Keeps s.settleTick :=
  .after (settleMinute_keeps s.settleLanes) (keeps_of_same rfl rfl ⟨rfl, rfl, rfl⟩ rfl rfl)

theorem checkOverdue_keeps (s : State) : s.Keeps s.checkOverdue := by
  unfold State.checkOverdue
  split
  · exact .after (place_keeps s.setOverdue _) (keeps_of_same rfl rfl ⟨rfl, rfl, rfl⟩ rfl rfl)
  · exact .refl s

theorem pulse_keeps (s : State) : s.Keeps s.pulse := by
  unfold State.pulse
  dsimp only
  split <;> exact keeps_of_same rfl rfl ⟨rfl, rfl, rfl⟩ rfl rfl

theorem noteAuthority_keeps (before s : State) : s.Keeps (State.noteAuthority before s) := by
  unfold State.noteAuthority
  split
  · exact keeps_of_same rfl rfl ⟨rfl, rfl, rfl⟩ rfl rfl
  · exact .refl s

/-! ### Requests -/

theorem consultLocks_keeps (s : State) (op : RecordOp) : s.Keeps (s.consultLocks op) := by
  unfold State.consultLocks
  split
  · exact place_keeps s _
  · split
    · exact answer_keeps s _
    · split
      · exact keeps_of_locks rfl rfl ⟨rfl, rfl, rfl⟩ rfl id
      · exact place_keeps s _

theorem setEngine_busy_keeps (s : State) (e : EngineId) (b : BusyEngine) : s.Keeps (s.setEngine e (.busy b)) :=
  keeps_of_engines rfl rfl ⟨rfl, rfl, rfl⟩ (enginesFit_busy e b) rfl

theorem setEngine_resting_keeps (s : State) (e : EngineId) : s.Keeps (s.setEngine e (restingEngine e s.supply)) :=
  keeps_of_engines rfl rfl ⟨rfl, rfl, rfl⟩ (enginesFit_resting e) rfl

theorem beside_keeps {s u : State} (h : s.Beside u) : s.Keeps u := by
  rw [h]
  exact keeps_of_same rfl rfl ⟨rfl, rfl, rfl⟩ rfl rfl

theorem answered_keeps {s t : State} (g : s.Answered t) : s.Keeps t := by
  cases g with
  | replied u c b hu => exact .trans (beside_keeps hu) (respond_keeps u c b)
  | placed u op hu => exact .trans (beside_keeps hu) (place_keeps u op)
  | consulted op => exact consultLocks_keeps s op
  | enciphered r => exact keeps_of_same rfl rfl ⟨rfl, rfl, rfl⟩ rfl rfl
  | dropped i g => exact .after (place_keeps _ _) (keeps_of_same rfl rfl ⟨rfl, rfl, rfl⟩ rfl rfl)
  | enabled c b => exact .trans (setEngine_resting_keeps s .b) (respond_keeps _ c b)

theorem requested_keeps {s t : State} (g : s.Requested t) : s.Keeps t := by
  have begun : ∀ lane hd, s.Keeps (s.settleTick.beginExchange lane hd) := fun lane hd =>
    .trans (settleTick_keeps s) (keeps_of_same rfl rfl ⟨rfl, rfl, rfl⟩ rfl rfl)
  cases g with
  | held => exact .refl s
  | overlapped => exact keeps_of_same (by simp) (by simp) ⟨by simp, by simp, by simp⟩ (by simp) (by simp)
  | refused lane hd u c b hi hu => exact .trans (begun lane hd) (.trans (beside_keeps hu) (respond_keeps u c b))
  | taken lane hd t hi ho ht => exact .trans (begun lane hd) (answered_keeps ht)

/-! ### Engines -/

/-- A free meter that an engine takes keeps one holder. -/
theorem distinct_claim {t : LockTable} (e : EngineId) (m : MeterNumber) (h : t.Distinct) (hf : t.free m = true) :
    ({ t with engines := t.engines.set e (some m) } : LockTable).Distinct := by
  obtain ⟨ha, hb, hs⟩ := (LockTable.free_iff t m).1 hf
  obtain ⟨h1, h2⟩ := h
  cases e
  · refine ⟨fun k hk => ?_, fun k hk => ⟨?_, (h2 k hk).2⟩⟩
    · obtain rfl := Option.some.inj hk
      exact hb
    · rintro hm
      obtain rfl := Option.some.inj hm
      exact hs hk
  · refine ⟨fun k hk hm => ?_, fun k hk => ⟨(h2 k hk).1, ?_⟩⟩
    · obtain rfl := Option.some.inj hm
      exact ha hk
    · rintro hm
      obtain rfl := Option.some.inj hm
      exact hs hk

/-- An engine's entry cleared keeps one holder. -/
theorem distinct_release {t : LockTable} (e : EngineId) (h : t.Distinct) :
    ({ t with engines := t.engines.set e none } : LockTable).Distinct := by
  obtain ⟨h1, h2⟩ := h
  cases e
  · exact ⟨fun _ => nofun, fun k hk => ⟨nofun, (h2 k hk).2⟩⟩
  · exact ⟨fun _ _ => nofun, fun k hk => ⟨(h2 k hk).1, nofun⟩⟩

/-- The scrubber's entry cleared keeps one holder. -/
theorem distinct_unscrub {t : LockTable} (h : t.Distinct) : ({ t with scrubber := none } : LockTable).Distinct :=
  ⟨h.1, fun _ => nofun⟩

/-- A meter that no engine names taken by the scrubber keeps one holder. -/
theorem distinct_scrub {t : LockTable} (m : MeterNumber) (h : t.Distinct) (hf : t.heldByEngine m = false) :
    ({ t with scrubber := some m } : LockTable).Distinct := by
  have hn : ¬ (t.engines.a = some m ∨ t.engines.b = some m) := by rw [← LockTable.heldByEngine_iff, hf]; decide
  refine ⟨h.1, fun k hk => ?_⟩
  obtain rfl := Option.some.inj hk
  exact not_or.1 hn

theorem grantClaim_keeps {s : State} (e : EngineId) (m : MeterNumber) (hf : s.locks.free m = true) :
    s.Keeps (s.grantClaim e m) := by
  have named : s.Keeps { s with locks := { s.locks with engines := s.locks.engines.set e (some m) } } :=
    keeps_of_locks rfl rfl ⟨rfl, rfl, rfl⟩ rfl fun h => distinct_claim e m h hf
  unfold State.grantClaim
  dsimp only
  split
  · exact named.trans ((setEngine_busy_keeps _ e _).trans (place_keeps _ _))
  · exact named

theorem claim_keeps (s : State) (e : EngineId) (m : MeterNumber) : s.Keeps (s.claim e m) := by
  unfold State.claim
  split
  · rename_i h
    exact grantClaim_keeps e m (Bool.and_eq_true _ _ ▸ h).1
  · exact keeps_of_locks rfl rfl ⟨rfl, rfl, rfl⟩ rfl id

theorem updateLane_keeps (s : State) (l : LaneId) (f : Lane → Lane) : s.Keeps (s.updateLane l f) :=
  keeps_of_same rfl rfl ⟨rfl, rfl, rfl⟩ rfl rfl

theorem endRequest_keeps (s : State) (e : EngineId) (b : BusyEngine) : s.Keeps (s.endRequest e b) :=
  .trans (updateLane_keeps s _ _) (setEngine_resting_keeps (s.updateLane b.lane (·.placeResult e ⟨b.tag, b.outcomes⟩)) e)

theorem startItem_keeps (s : State) (e : EngineId) (b : BusyEngine) : s.Keeps (s.startItem e b) := by
  unfold State.startItem
  split
  · exact .trans (setEngine_busy_keeps s e _) (claim_keeps _ e _)
  · exact endRequest_keeps s e b

theorem endItem_keeps (s : State) (e : EngineId) (b : BusyEngine) (o : ItemOutcome) : s.Keeps (s.endItem e b o) := by
  unfold State.endItem
  dsimp only
  split
  · exact endRequest_keeps s e _
  · split
    · exact endRequest_keeps s e _
    · exact startItem_keeps s e _

theorem releaseLock_keeps (s : State) (e : EngineId) : s.Keeps (s.releaseLock e) :=
  keeps_of_locks rfl rfl ⟨rfl, rfl, rfl⟩ rfl (distinct_release e)

theorem refuseItem_keeps (s : State) (e : EngineId) (b : BusyEngine) (c : RefusalCode) : s.Keeps (s.refuseItem e b c) := by
  have reported : (s.releaseLock e).Keeps ((s.releaseLock e).reportRefused b.lane c) :=
    keeps_of_same (by simp) (by simp) ⟨by simp, by simp, by simp⟩ (by simp) (by simp)
  exact (releaseLock_keeps s e).trans (reported.trans (endItem_keeps _ e b _))

theorem continueTokens_keeps (s : State) (e : EngineId) (b : BusyEngine) : s.Keeps (s.continueTokens e b) := by
  unfold State.continueTokens
  split
  · exact .trans (setEngine_busy_keeps s e _) (keeps_of_same rfl rfl ⟨rfl, rfl, rfl⟩ rfl rfl)
  · exact .trans (setEngine_busy_keeps s e _) (place_keeps _ _)
  · exact setEngine_busy_keeps s e b

theorem checkItem_keeps (s : State) (e : EngineId) (b : BusyEngine) (i : Item) (n : Nat) (r : MeterRecord) :
    s.Keeps (s.checkItem e b i n r) := by
  unfold State.checkItem State.passItem
  split
  · exact refuseItem_keeps s e b _
  · split
    · exact refuseItem_keeps s e b _
    · split
      · exact refuseItem_keeps s e b _
      · exact .after (continueTokens_keeps _ e _) (keeps_of_same (by simp) (by simp) ⟨by simp, by simp, by simp⟩ (by simp) (by simp))

theorem receiveToken_keeps (s : State) (e : EngineId) (t : Token) : s.Keeps (s.receiveToken e t) := by
  unfold State.receiveToken
  split
  · exact continueTokens_keeps s e _
  · exact .refl s

theorem clearReserved_keeps (s : State) (e : EngineId) : s.Keeps (s.clearReserved e) := by
  unfold State.clearReserved
  split
  · exact setEngine_busy_keeps s e _
  · exact .refl s

theorem dispatchTo_keeps (s : State) (e : EngineId) (l : LaneId) : s.Keeps (s.dispatchTo e l) := by
  unfold State.dispatchTo
  split
  · exact .refl s
  · exact .after (startItem_keeps _ e _) (keeps_of_same rfl rfl ⟨rfl, rfl, rfl⟩ rfl rfl)

/-! ### Reads and writes of record memory -/

theorem readWords_keeps (s : State) (n : Nat) (d : Decay) : s.Keeps (s.readWords n d) :=
  keeps_of_store (readWords_wf s n d) (fun h => tables_congr h rfl rfl rfl rfl) ⟨rfl, rfl, rfl⟩ rfl rfl

theorem markDamaged_keeps (s : State) (n : Nat) : s.Keeps (s.markDamaged n) := by
  unfold State.markDamaged
  split
  · exact .refl s
  · exact keeps_of_store id (damage_tables n) ⟨rfl, rfl, rfl⟩ rfl rfl

theorem makeOrphan_keeps (s : State) (n : Nat) : s.Keeps (s.makeOrphan n) :=
  keeps_of_store id
    (fun h => listOrphan_tables n (setCondition_tables n _ (undamage_tables n (unindexRow_tables n h)))) ⟨rfl, rfl, rfl⟩ rfl rfl

theorem readRecordRow_keeps (s : State) (n : Nat) (d : Decay) : s.Keeps (s.readRecordRow n d) := by
  unfold State.readRecordRow
  split
  · exact .trans (readWords_keeps s n d) (makeOrphan_keeps _ n)
  · exact .trans (readWords_keeps s n d) (markDamaged_keeps _ n)
  · exact readWords_keeps s n d

theorem readMeter_keeps (s : State) (m : MeterNumber) (d : Decay) : s.Keeps (s.readMeter m d).1 := by
  unfold State.readMeter
  split
  · exact .refl s
  · split
    · exact .refl s
    · split <;> exact readRecordRow_keeps s _ d

theorem readOrFault_keeps (s : State) (id : RowId) (d : Decay) (b : Bool) : s.Keeps (s.readOrFault id d b) := by
  unfold State.readOrFault
  split <;>
    exact keeps_of_store (readPlainRow_wf s id d) (fun h => tables_congr h rfl rfl rfl rfl) ⟨rfl, rfl, rfl⟩ rfl rfl

/-- A write of record memory that changes nothing else of the four laws' parts. -/
theorem keeps_of_memory {s t : State} (hm : s.memory.wf → t.memory.wf) (ht : t.store = s.store) (hs : s.SameSupply t)
    (he : t.engines = s.engines) (hl : t.locks = s.locks) : s.Keeps t :=
  keeps_of_store hm (fun h => ht ▸ h) hs he hl

theorem writeRecord_keeps (s : State) (n : Nat) (r : MeterRecord) : s.Keeps (s.writeRecord n r) :=
  keeps_of_memory (writeRecord_wf _ n r) rfl ⟨rfl, rfl, rfl⟩ rfl rfl

theorem createRecord_keeps (s : State) (n : Nat) (r : MeterRecord) : s.Keeps (s.createRecord n r) :=
  keeps_of_store (writeRecord_wf _ n r) (fun h => indexMeter_tables _ n (setCondition_tables n _ h)) ⟨rfl, rfl, rfl⟩ rfl rfl

/-- A completion that answers the request in hand. -/
theorem finished_keeps {s t : State} {c : ResultCode} {b : ReplyBody} (h : s.Keeps t) : s.Keeps (t.finishOp.respond c b) :=
  h.trans ((finishOp_keeps t).trans (respond_keeps _ c b))

/-! ### Completions -/

theorem itemRead_keeps (s : State) (e : EngineId) (m : MeterNumber) (d : Decay) : s.Keeps (s.itemRead e m d) := by
  have hr := readMeter_keeps s m d
  unfold State.itemRead
  split
  · exact finishOp_keeps s
  · split
    · exact finishOp_keeps s
    · split <;> rename_i ht <;> rw [ht] at hr
      · exact hr.trans ((finishOp_keeps _).trans (refuseItem_keeps _ e _ _))
      · exact hr.trans ((finishOp_keeps _).trans (refuseItem_keeps _ e _ _))
      · exact hr.trans ((finishOp_keeps _).trans (checkItem_keeps _ e _ _ _ _))

theorem counterReply_keeps (s : State) (lane : LaneId) (n : Nat) (r : MeterRecord) (q : CounterQuery) :
    s.Keeps (s.counterReply lane n r q) := by
  unfold State.counterReply
  repeat' split
  all_goals exact respond_keeps s _ _

theorem counterRead_keeps (s : State) (lane : LaneId) (q : CounterQuery) (d : Decay) : s.Keeps (s.counterRead lane q d) := by
  have hr := readMeter_keeps s q.meter d
  unfold State.counterRead
  split <;> rename_i ht <;> rw [ht] at hr
  · exact finished_keeps hr
  · exact hr.trans ((finishOp_keeps _).trans (counterReply_keeps _ lane _ _ q))

theorem editRecord_keeps (s : State) (m : MeterNumber) (d : Decay) (edit : MeterRecord → Option MeterRecord) :
    s.Keeps (s.editRecord m d edit) := by
  have hr := readMeter_keeps s m d
  unfold State.editRecord
  split <;> rename_i ht <;> rw [ht] at hr
  · exact finished_keeps hr
  · split
    · exact finished_keeps (hr.trans (writeRecord_keeps _ _ _))
    · exact finished_keeps hr

theorem purgeRecord_keeps (s : State) (m : MeterNumber) (d : Decay) : s.Keeps (s.purgeRecord m d) := by
  have hr := readMeter_keeps s m d
  unfold State.purgeRecord
  split <;> rename_i ht <;> rw [ht] at hr
  · exact finished_keeps hr
  · split
    · exact finished_keeps (hr.trans (keeps_of_store (writeFree_wf _ _)
        (fun h => release_tables _ (unindexRow_tables _ h)) ⟨rfl, rfl, rfl⟩ rfl rfl))
    · exact finished_keeps hr

theorem enrolRecord_keeps (s : State) (f : EnrolFields) (row : Option Nat) : s.Keeps (s.enrolRecord f row) := by
  unfold State.enrolRecord
  split
  · exact finished_keeps (createRecord_keeps s _ _)
  · split <;> exact finished_keeps (.refl s)

theorem purgeOrphan_keeps (s : State) (n : Nat) : s.Keeps (s.purgeOrphan n) := by
  unfold State.purgeOrphan
  split
  · exact finished_keeps (.refl s)
  · split
    · exact finished_keeps (.refl s)
    · exact finished_keeps (keeps_of_store (writeFree_wf _ _)
        (fun h => unlistOrphan_tables n (release_tables n h)) ⟨rfl, rfl, rfl⟩ rfl rfl)

theorem restoreRecord_keeps (s : State) (f : RestoreFields) (row : Option Nat) (d : Decay) :
    s.Keeps (s.restoreRecord f row d) := by
  have counted : ∀ k, s.Keeps (s.countErrors k) := fun k =>
    keeps_of_store id (fun h => tables_congr h rfl rfl rfl rfl) ⟨rfl, rfl, rfl⟩ rfl rfl
  unfold State.restoreRecord
  split
  · exact finished_keeps (.refl s)
  · exact finished_keeps ((counted _).trans (keeps_of_store (writeRecord_wf _ _ _) (undamage_tables _) ⟨rfl, rfl, rfl⟩ rfl rfl))
  · split
    · exact finished_keeps (.refl s)
    · split
      · exact finished_keeps (.refl s)
      · exact finished_keeps ((counted _).trans ((createRecord_keeps _ _ _).trans
          (keeps_of_store id (unlistOrphan_tables _) ⟨rfl, rfl, rfl⟩ rfl rfl)))
  · exact finished_keeps (createRecord_keeps s _ _)
  · exact finished_keeps (.refl s)

theorem recordDone_keeps (s : State) (op : RecordOp) (row : Option Nat) (d : Decay) : s.Keeps (s.recordDone op row d) := by
  cases op with
  | enrol f => exact enrolRecord_keeps s f row
  | amend f => exact editRecord_keeps s _ d _
  | retire m => exact editRecord_keeps s m d _
  | reinstate m => exact editRecord_keeps s m d _
  | purge m => exact purgeRecord_keeps s m d
  | purgeRow n => exact purgeOrphan_keeps s n
  | restore f => exact restoreRecord_keeps s f row d

theorem advanceScrubber_keeps (s : State) : s.Keeps s.advanceScrubber :=
  keeps_of_store id (fun h => tables_congr h rfl rfl rfl rfl) ⟨rfl, rfl, rfl⟩ rfl rfl

theorem placeScrub_keeps (s : State) (row : RowId) : s.Keeps (s.placeScrub row) :=
  .after (place_keeps _ _) (keeps_of_store id (fun h => tables_congr h rfl rfl rfl rfl) ⟨rfl, rfl, rfl⟩ rfl rfl)

theorem scrubFindings_keeps (s : State) (n : Nat) (d : Decay) : s.Keeps (s.scrubFindings n d) := by
  unfold State.scrubFindings
  split
  · exact readRecordRow_keeps s n d
  · exact readWords_keeps s n d

theorem scrubbed_keeps (s : State) (id : RowId) (d : Decay) : s.Keeps (s.scrubbed id d) := by
  have freed : ∀ t : State, t.Keeps { t with locks := { t.locks with scrubber := none } } := fun t =>
    keeps_of_locks rfl rfl ⟨rfl, rfl, rfl⟩ rfl distinct_unscrub
  unfold State.scrubbed
  split
  · exact (scrubFindings_keeps s _ d).trans ((freed _).trans ((finishOp_keeps _).trans (advanceScrubber_keeps _)))
  · exact (readOrFault_keeps s _ d true).trans ((finishOp_keeps _).trans (advanceScrubber_keeps _))

theorem indexScanned_keeps (s : State) (n : Nat) (m : MeterNumber) (lost : Bool) : s.Keeps (s.indexScanned n m lost) := by
  have indexed : s.Keeps { s with store := (s.store.setCondition n .record).indexMeter m n } :=
    keeps_of_store id (fun h => indexMeter_tables m n (setCondition_tables n _ h)) ⟨rfl, rfl, rfl⟩ rfl rfl
  unfold State.indexScanned
  dsimp only
  split
  · exact indexed.trans (markDamaged_keeps _ n)
  · exact indexed

theorem scanFindings_keeps (s : State) (n : Nat) (d : Decay) : s.Keeps (s.scanFindings n d) := by
  have hw := readWords_keeps s n d
  unfold State.scanFindings
  dsimp only
  split
  · exact hw.trans (makeOrphan_keeps _ n)
  · split
    · exact hw.trans (keeps_of_store id (fun h => free_tables n (setCondition_tables n .free h)) ⟨rfl, rfl, rfl⟩ rfl rfl)
    · unfold State.scanRecord
      dsimp only
      split
      · exact hw.trans (indexScanned_keeps _ n _ _)
      · generalize laterRowWins _ _ = wins
        cases wins
        · exact hw.trans (makeOrphan_keeps _ n)
        · exact hw.trans ((makeOrphan_keeps _ _).trans (indexScanned_keeps _ n _ _))

/-- The office READY (R171), before the rules of R144. -/
def State.readied (s : State) : State :=
  { s with office := .ready }

/-- What holds of the office as it becomes READY holds after R144's steps when each of them keeps it. -/
theorem enterReady_ind {P : State → Prop} {s : State} (ready : P s.readied) (overdue : ∀ t, P t → P t.raiseDayOverdue)
    (check : ∀ t, P t → P t.checkOverdue) (low : ∀ t, P t → P t.raiseAuthorityLow) : P s.enterReady := by
  have due : P (if s.readied.authority.overdue then s.readied.raiseDayOverdue else s.readied.checkOverdue) := by
    split
    · exact overdue _ ready
    · exact check _ ready
  have marked : ∀ t : State, P t → P (if t.authority.available < t.settings.lowMark then t.raiseAuthorityLow else t) :=
    fun t h => by
      split
      · exact low t h
      · exact h
  exact marked _ due

theorem enterReady_keeps (s : State) : s.Keeps s.enterReady :=
  enterReady_ind (keeps_of_same rfl rfl ⟨rfl, rfl, rfl⟩ rfl rfl)
    (fun _ h => h.trans (keeps_of_same rfl rfl ⟨rfl, rfl, rfl⟩ rfl rfl)) (fun t h => h.trans (checkOverdue_keeps t))
    (fun _ h => h.trans (keeps_of_same rfl rfl ⟨rfl, rfl, rfl⟩ rfl rfl))

theorem officeWritten_keeps (s : State) : s.Keeps s.officeWritten :=
  keeps_of_memory (writeOffice_wf _ _) rfl ⟨rfl, rfl, rfl⟩ rfl rfl

/-- The completion of a write of the office row with what the units take. -/
theorem officeTaken_keeps {s t : State} (hm : t.memory = s.officeWritten.memory)
    (ht : s.store.Lawful → t.store.Lawful) (hs : s.SameSupply t) (he : t.engines = s.engines) (hl : t.locks = s.locks) :
    s.Keeps t :=
  (officeWritten_keeps s).trans (keeps_of_store (fun h => hm ▸ h) ht hs he hl)

theorem completion_keeps (s : State) (d : Decay) (op : RowOp) : s.Keeps (s.completion d op) := by
  cases op with
  | itemRead e m => exact itemRead_keeps s e m d
  | counterRead lane q => exact counterRead_keeps s lane q d
  | record op => exact recordDone_keeps s op _ d
  | scrub id => exact scrubbed_keeps s id d
  | commitMarker e m =>
    exact .after ((finishOp_keeps _).trans (place_keeps _ _)) (keeps_of_memory (writeCommit_wf _ e _) rfl ⟨rfl, rfl, rfl⟩ rfl rfl)
  | commitMeter e m =>
    exact .after ((finishOp_keeps _).trans (place_keeps _ _)) (keeps_of_store (writeRecord_wf _ _ _) (commitRow_tables _ _) ⟨rfl, rfl, rfl⟩ rfl rfl)
  | commitClear e =>
    have cleared : s.Keeps ({ s with memory := s.memory.writeCommit e none } : State).finishOp :=
      .after (finishOp_keeps _) (keeps_of_memory (writeCommit_wf _ e _) rfl ⟨rfl, rfl, rfl⟩ rfl rfl)
    show s.Keeps (s.commitCleared e)
    unfold State.commitCleared
    dsimp only
    split
    · split
      · exact cleared.trans ((releaseLock_keeps _ e).trans (.trans
          (keeps_of_same (by simp) (by simp) ⟨by simp, by simp, by simp⟩ (by simp) (by simp)) (endItem_keeps _ e _ _)))
      · exact cleared
    · exact cleared
  | office w =>
    cases w with
    | grant amount serial =>
      exact finished_keeps (officeTaken_keeps rfl id ⟨rfl, rfl, rfl⟩ rfl rfl)
    | closeDay =>
      exact (settleMinute_keeps s).trans (finished_keeps (officeTaken_keeps rfl id ⟨rfl, rfl, rfl⟩ rfl rfl))
    | closeMonth => exact finished_keeps (officeTaken_keeps rfl id ⟨rfl, rfl, rfl⟩ rfl rfl)
    | dayAge => exact .trans (officeWritten_keeps s) (finishOp_keeps _)
    | commit e m =>
      exact .after (place_keeps _ _) (.after (finishOp_keeps _) (.after (clearReserved_keeps _ e)
        (officeTaken_keeps rfl id ⟨rfl, rfl, rfl⟩ rfl rfl)))
    | rollForward e m =>
      exact .after (place_keeps _ _) (.after (finishOp_keeps _) (officeTaken_keeps rfl id ⟨rfl, rfl, rfl⟩ rfl rfl))
    | setOffice st =>
      have taken : s.Keeps ({ s.officeWritten with settings := st } : State).finishOp :=
        .after (finishOp_keeps _) (officeTaken_keeps rfl id ⟨rfl, rfl, rfl⟩ rfl rfl)
      have checked : ∀ t : State, t.Keeps (if st.dayLimit ≠ s.settings.dayLimit then t.checkOverdue else t) := fun t => by
        split
        · exact checkOverdue_keeps t
        · exact .refl t
      exact taken.trans ((checked _).trans ((noteAuthority_keeps s _).trans (respond_keeps _ _ _)))
    | setAlarm exponent count =>
      exact finished_keeps (officeTaken_keeps rfl (fun h => tables_congr h rfl rfl rfl rfl) ⟨rfl, rfl, rfl⟩ rfl rfl)
  | setTariff row bank => exact finished_keeps (keeps_of_memory (writeTariff_wf _ _ _) rfl ⟨rfl, rfl, rfl⟩ rfl rfl)
  | clearTariff row => exact finished_keeps (keeps_of_memory (writeTariff_wf _ _ _) rfl ⟨rfl, rfl, rfl⟩ rfl rfl)
  | loadKey slot k => exact finished_keeps (keeps_of_memory (writeKey_wf _ _ _) rfl ⟨rfl, rfl, rfl⟩ rfl rfl)
  | dropKey slot g => exact finished_keeps (keeps_of_memory (writeKey_wf _ _ _) rfl ⟨rfl, rfl, rfl⟩ rfl rfl)
  | setLane named given namesEngine =>
    exact finished_keeps (keeps_of_memory (writeLanes_wf _ _) rfl ⟨rfl, rfl, rfl⟩ rfl rfl)
  | startOffice row =>
    have read := (readOrFault_keeps s row d false).trans (finishOp_keeps _)
    show s.Keeps (s.officeRowRead row d)
    unfold State.officeRowRead
    dsimp only
    split
    · exact read
    · split
      · exact read.trans (place_keeps _ _)
      · exact read.trans (.after (place_keeps _ _) (keeps_of_store id (fun h => tables_congr h rfl rfl rfl rfl) ⟨rfl, rfl, rfl⟩ rfl rfl))
  | startCommit e =>
    have read := (readOrFault_keeps s (.commit e) d false).trans (finishOp_keeps _)
    show s.Keeps (s.commitRowRead e d)
    unfold State.commitRowRead
    dsimp only
    split
    · exact read
    · split <;> exact read.trans (place_keeps _ _)
  | rollMeter e m =>
    have written := (writeRecord_keeps s m.row m.image).trans (finishOp_keeps _)
    show s.Keeps (s.rollMeterWritten e m)
    unfold State.rollMeterWritten
    dsimp only
    split <;> exact written.trans (place_keeps _ _)
  | rollClear e =>
    exact .after ((finishOp_keeps _).trans (place_keeps _ _)) (keeps_of_memory (writeCommit_wf _ e _) rfl ⟨rfl, rfl, rfl⟩ rfl rfl)
  | scan n =>
    have scanned := (scanFindings_keeps s n d).trans (finishOp_keeps _)
    show s.Keeps (s.rowScanned n d)
    unfold State.rowScanned
    dsimp only
    split
    · exact scanned.trans (place_keeps _ _)
    · exact scanned.trans (enterReady_keeps _)

/-! ### Verifications, the supply and the reset -/

theorem grantVerified_keeps (s : State) (f : GrantFields) : s.Keeps (s.grantVerified f) := by
  have done : s.Keeps s.completeCipher := keeps_of_same rfl rfl ⟨rfl, rfl, rfl⟩ rfl rfl
  unfold State.grantVerified
  dsimp only
  split
  · exact done.trans (answer_keeps _ _)
  · split
    · exact done.trans (answer_keeps _ _)
    · exact done.trans (place_keeps _ _)

theorem loadKeyVerified_keeps (s : State) (f : LoadKeyFields) : s.Keeps (s.loadKeyVerified f) := by
  have done : s.Keeps s.completeCipher := keeps_of_same rfl rfl ⟨rfl, rfl, rfl⟩ rfl rfl
  unfold State.loadKeyVerified
  dsimp only
  split
  · exact done.trans (answer_keeps _ _)
  · split
    · exact done.trans (answer_keeps _ _)
    · split
      · exact done.trans (answer_keeps _ _)
      · exact done.trans (.after (place_keeps _ _) (keeps_of_same rfl rfl ⟨rfl, rfl, rfl⟩ rfl rfl))

theorem restoreVerified_keeps (s : State) (f : RestoreFields) : s.Keeps (s.restoreVerified f) := by
  have done : s.Keeps s.completeCipher := keeps_of_same rfl rfl ⟨rfl, rfl, rfl⟩ rfl rfl
  unfold State.restoreVerified
  split
  · exact done.trans (consultLocks_keeps _ _)
  · exact done.trans (answer_keeps _ _)

/-- The supply monitor's step (R104, R163). -/
theorem supplied_keeps (s : State) (mainsOk pwrWarn : Bool) :
    s.Keeps ({ s with mainsOk := mainsOk, pwrWarn := pwrWarn } : State).deriveSupply := by
  unfold State.deriveSupply
  dsimp only
  split
  · rename_i h
    exact ⟨id, id, fun hs => ⟨h.symm, hs.2⟩, id⟩
  · exact ⟨id, id, fun hs => ⟨rfl, enginesFit_follow s.supply _ hs.2⟩, id⟩

/-- A reset ends the volatile states, and keeps the form of the memory it finds (R165). -/
theorem restart_keeps (s : State) (m : RecordMemory) (hm : m = s.memory ∨ ∃ d, m = s.landedMemory d) :
    s.Keeps (s.restart m) := by
  refine ⟨fun h => ?_, fun _ => ⟨.nil, .nil, .nil, .nil⟩, fun _ => ⟨rfl, nofun, nofun, nofun, nofun⟩, fun _ =>
    ⟨fun _ => nofun, fun _ => nofun⟩⟩
  rcases hm with rfl | ⟨d, rfl⟩
  · exact h
  · exact landedMemory_wf s d h

/-- Every step keeps the four laws. -/
theorem stepped_keeps {s t : State} (g : s.Stepped t) : s.Keeps t := by
  cases g with
  | idle => exact .refl s
  | requested t g _ => exact requested_keeps g
  | unknownLane h code => exact keeps_of_same rfl rfl ⟨rfl, rfl, rfl⟩ rfl rfl
  | replyRead r => exact keeps_of_same rfl rfl ⟨rfl, rfl, rfl⟩ rfl rfl
  | ticked => exact (settleTick_keeps s).trans (pulse_keeps _)
  | expired lane => exact updateLane_keeps s lane _
  | minute => exact settleMinute_keeps s
  | supplied mainsOk pwrWarn => exact supplied_keeps s mainsOk pwrWarn
  | restarted m hm => exact restart_keeps s m hm
  | resetAsserted => exact keeps_of_same rfl rfl ⟨rfl, rfl, rfl⟩ rfl rfl
  | dispatched e lane => exact dispatchTo_keeps s e lane
  | claimGranted c hc hf =>
    exact .after (grantClaim_keeps (s := s.unqueued c) c.1 c.2 hf) (keeps_of_locks rfl rfl ⟨rfl, rfl, rfl⟩ rfl id)
  | supervisorRetaken op =>
    exact .after (consultLocks_keeps s.supervisorFreed op) (keeps_of_locks rfl rfl ⟨rfl, rfl, rfl⟩ rfl id)
  | monthAdvanced => exact keeps_of_same rfl rfl ⟨rfl, rfl, rfl⟩ rfl rfl
  | rowPassed => exact advanceScrubber_keeps s
  | rowClaimed n m h hm =>
    exact .after (placeScrub_keeps (s.scrubberClaim m) _) (keeps_of_locks rfl rfl ⟨rfl, rfl, rfl⟩ rfl fun hd => distinct_scrub m hd hm)
  | rowVisited id => exact placeScrub_keeps s id
  | tokenComputed e m p t => exact .after (receiveToken_keeps s.completeCipher e t) (keeps_of_same rfl rfl ⟨rfl, rfl, rfl⟩ rfl rfl)
  | grantVerified f => exact grantVerified_keeps s f
  | loadKeyVerified f => exact loadKeyVerified_keeps s f
  | restoreVerified f => exact restoreVerified_keeps s f
  | completed op d => exact completion_keeps s d op

/-- A step with nothing queued leaves the state, and else runs the front command on the queue's rest. -/
theorem step_stepped {s t : State} (e : step s = .next t) :
    t = s ∨ ∃ rest, ({ s with pending := rest } : State).Stepped t := by
  unfold step at e
  split at e
  · exact .inl (Host.Outcome.next.inj e).symm
  · exact .inr ⟨_, exec_stepped _ _ t e⟩

/-- Settles O59: every step is one of the cases of `State.Stepped`, and each keeps the four laws. -/
theorem stepKeepsMemoryTablesSupplyAndLocks : Obligations.StepKeepsMemoryTablesSupplyAndLocks := by
  intro s t e
  have keeps : s.Keeps t := by
    rcases step_stepped e with rfl | ⟨rest, g⟩
    · exact .refl t
    · exact .after (stepped_keeps g) (keeps_of_same rfl rfl ⟨rfl, rfl, rfl⟩ rfl rfl)
  exact ⟨keeps.memory, keeps.tables, keeps.supply, keeps.locks⟩

end Sys2Proof.Machine
end

section
/-! Proofs: every step keeps the law of the store's rows (R9 to R12, R17, R166, R169). -/
namespace Sys2Proof.Machine

open Sys2Proof

/-! ### The findings of a scanned row -/

/-- The part of the law that no operation of the store's list bears on. -/
def Store.TablesSound (t : Store) : Prop :=
  sparseRising t.index ∧ t.TablesAgree

theorem makeOrphan_condition (s : State) (n k : Nat) :
    (s.makeOrphan n).store.condition k = if k = n then .orphan else s.store.condition k :=
  (cond_congr (listOrphan_index _ n).2.1 k).trans (cond_set _ n k _)

theorem makeOrphan_rowOf {s : State} (hr : sparseRising s.store.index) (n : Nat) (m : MeterNumber) (k : Nat) :
    (s.makeOrphan n).store.rowOf m = some k ↔ s.store.rowOf m = some k ∧ k ≠ n := by
  rw [← rowOf_unindexRow (t := s.store) hr]
  exact iff_of_eq (congrArg (· = some k) (rowOf_congr (listOrphan_index _ n).1 m))

theorem makeOrphan_sound {s : State} {n : Nat} (h : s.store.TablesSound) (hn : s.store.condition n ≠ .free) :
    (s.makeOrphan n).store.TablesSound := by
  obtain ⟨hr, ha⟩ := h
  refine ⟨?_, orphan_tables n hr ha hn⟩
  show sparseRising (Store.listOrphan _ n).index
  rw [(listOrphan_index _ n).1]
  exact hr.sublist (List.Sublist.map _ List.filter_sublist)

theorem markDamaged_condition (s : State) (n k : Nat) : (s.markDamaged n).store.condition k = s.store.condition k := by
  unfold State.markDamaged
  split <;> rfl

theorem markDamaged_sound {s : State} {n : Nat} (h : s.store.TablesSound) (hn : s.store.condition n = .record) :
    (s.markDamaged n).store.TablesSound := by
  obtain ⟨hr, ⟨hi, ho, he, hf, hd⟩⟩ := h
  unfold State.markDamaged
  split
  · exact ⟨hr, hi, ho, he, hf, hd⟩
  · refine ⟨hr, hi, ho, he, hf, fun k hk => ?_⟩
    rcases (mem_insertRising n k s.store.damaged).1 hk with rfl | hk
    · exact hn
    · exact hd k hk

theorem indexScanned_condition (s : State) (n : Nat) (m : MeterNumber) (lost : Bool) (k : Nat) (hk : k ≠ n) :
    (s.indexScanned n m lost).store.condition k = s.store.condition k := by
  have hi : ((s.store.setCondition n .record).indexMeter m n).condition k = s.store.condition k :=
    setCondition_condition_other s.store n k .record hk
  unfold State.indexScanned
  dsimp only
  split
  · rw [markDamaged_condition]
    exact hi
  · exact hi

theorem indexScanned_sound {s : State} {n : Nat} {m : MeterNumber} (lost : Bool) (h : s.store.TablesSound)
    (hm : s.store.rowOf m = none) (hn : s.store.condition n ≠ .record) (hf : s.store.condition n ≠ .free) :
    (s.indexScanned n m lost).store.TablesSound := by
  obtain ⟨hr, ha⟩ := h
  have indexed : ((s.store.setCondition n .record).indexMeter m n).TablesSound :=
    ⟨sparseSet_rising _ _ _ hr, index_tables n m ha hm hn hf⟩
  unfold State.indexScanned
  dsimp only
  split
  · exact markDamaged_sound indexed (setCondition_condition s.store n .record)
  · exact indexed

/-- A row that the scan finds free (R11, R169). -/
theorem release_sound {t : Store} {n : Nat} (h : t.TablesSound) (hn : t.condition n = .undetermined) :
    (t.release n).TablesSound := by
  obtain ⟨hr, ⟨hi, ho, he, hf, hd⟩⟩ := h
  have hc : ∀ k, (t.release n).condition k = if k = n then .free else t.condition k := fun k => cond_of (t := t) (n := n) (c := .free) rfl k
  have other : ∀ k, t.condition k = .record → (t.release n).condition k = .record := fun k hk => by
    rw [hc, if_neg (by rintro rfl; rw [hn] at hk; cases hk), hk]
  refine ⟨hr, fun m k hk => other k (hi m k hk), ho, fun k hk => he k ?_, fun k => ?_, fun k hk => other k (hd k hk)⟩
  · rw [hc] at hk
    split at hk
    · cases hk
    · exact hk
  · rw [hc]
    show k ∈ insertRising n t.freeList ↔ _
    rw [mem_insertRising, hf]
    by_cases hk : k = n <;> simp [hk]

/-- What the scan of row `n` keeps: sound tables, and every later row still undetermined. -/
def Store.Scanned (t : Store) (n : Nat) : Prop :=
  t.TablesSound ∧ ∀ k, n < k → t.condition k = .undetermined

/-- While the scan reads row `n` no row from it on is determined (R169). -/
theorem undetermined_of_scan {s : State} {n : Nat} (h : s.RowsLawful) (hc : s.current = some (.scan n)) (k : Nat)
    (hk : n ≤ k) : s.store.condition k = .undetermined := by
  obtain ⟨-, -, -, -, hs⟩ := h
  refine hs (.scan n) (by rw [ops_current hc]; exact List.mem_cons_self) rfl k fun m hm => ?_
  cases hm
  exact hk

/-- The findings of a scanned row (R169, R170). -/
theorem scanFindings_scanned {s : State} {n : Nat} (d : Decay) (h : s.RowsLawful) (hc : s.current = some (.scan n)) :
    (s.scanFindings n d).store.Scanned n := by
  have hu := undetermined_of_scan h hc
  have hn : (s.readWords n d).store.condition n = .undetermined := hu n (le_refl n)
  have hlater : ∀ k, n < k → (s.readWords n d).store.condition k = .undetermined := fun k hk => hu k hk.le
  have sound : (s.readWords n d).store.TablesSound := ⟨h.1, h.2.1.1, h.2.1.2, h.2.1.3, h.2.1.4, h.2.1.5⟩
  have orphan : ((s.readWords n d).makeOrphan n).store.Scanned n :=
    ⟨makeOrphan_sound sound (by rw [hn]; decide), fun k hk => by
      rw [makeOrphan_condition, if_neg hk.ne', hlater k hk]⟩
  unfold State.scanFindings
  dsimp only
  split
  · exact orphan
  · split
    · refine ⟨release_sound sound hn, fun k hk => ?_⟩
      exact (setCondition_condition_other (s.readWords n d).store n k .free hk.ne').trans (hlater k hk)
    · rename_i r _
      unfold State.scanRecord
      dsimp only
      split
      · rename_i hm
        exact ⟨indexScanned_sound _ sound hm (by rw [hn]; decide) (by rw [hn]; decide), fun k hk => by
          rw [indexScanned_condition _ _ _ _ k hk.ne', hlater k hk]⟩
      · rename_i j hj
        generalize laterRowWins _ _ = wins
        cases wins
        · exact orphan
        · have hrec : (s.readWords n d).store.condition j = .record := sound.2.indexed _ _ hj
          have hjn : j ≠ n := by rintro rfl; rw [hn] at hrec; cases hrec
          have hlt : ∀ k, n ≤ k → k ≠ j := fun k hk => by
            rintro rfl
            rw [show (s.readWords n d).store.condition k = .undetermined from hu k hk] at hrec
            cases hrec
          have hcond : ∀ k, n ≤ k → ((s.readWords n d).makeOrphan j).store.condition k = .undetermined := fun k hk => by
            rw [makeOrphan_condition, if_neg (hlt k hk)]
            exact hu k hk
          have gone : ((s.readWords n d).makeOrphan j).store.rowOf r.meter = none := by
            cases hg : ((s.readWords n d).makeOrphan j).store.rowOf r.meter with
            | none => rfl
            | some k =>
              obtain ⟨hk, hkj⟩ := (makeOrphan_rowOf sound.1 j r.meter k).1 hg
              exact absurd (Option.some.inj (hk.symm.trans hj)) hkj
          refine ⟨indexScanned_sound _ (makeOrphan_sound sound (by rw [hrec]; decide)) gone
            (by rw [hcond n (le_refl n)]; decide) (by rw [hcond n (le_refl n)]; decide), fun k hk => ?_⟩
          show (State.indexScanned _ n r.meter _).store.condition k = _
          rw [indexScanned_condition _ _ _ _ k hk.ne', hcond k hk.le]

/-- The end of an operation does not look at it. -/
theorem finishOp_forgets (s : State) : s.rested.finishOp = s.finishOp := by
  have taken : ∀ (q : State) (op : RowOp), ({ q with store := { q.store with inProgress := none } } : State).takeOp op
      = q.takeOp op := fun q op => by
    unfold State.takeOp Store.allocation Store.rowOf
    rfl
  have waits : s.rested.store.waiting = s.store.waiting := rfl
  unfold State.finishOp
  rw [waits]
  split
  · rfl
  · exact taken { s with store := { s.store with waiting := _ } } _

/-- The store after the scan of row `n`, its operation over. -/
theorem scanned_between {s : State} {n : Nat} (h : s.store.Scanned n) (hw : ∀ o ∈ s.store.waiting, o.startupStep = none) :
    Store.RowsBetween s.rested.store := by
  obtain ⟨⟨hr, ha⟩, -⟩ := h
  have hops : s.rested.store.operations = s.store.waiting := rfl
  refine ⟨hr, ⟨ha.1, ha.2, ha.3, ha.4, ha.5⟩, ?_, fun o ho hs => ?_⟩
  · rw [hops, List.countP_eq_zero.2 fun o ho => by simp [hw o ho]]
    exact Nat.zero_le 1
  · rw [hw o ho] at hs
    cases hs

/-! ### Completions -/

theorem respond_rows {s : State} {c : ResultCode} {b : ReplyBody} (h : s.RowsLawful) : (s.respond c b).RowsLawful :=
  congr_rows h (by simp)

/-- A completion that answers the request in hand. -/
theorem finished_rows {t : State} {c : ResultCode} {b : ReplyBody} (h : Store.RowsBetween t.store) :
    (t.finishOp.respond c b).RowsLawful :=
  respond_rows (finishOp_rows h)

theorem itemRead_rows {s : State} {e : EngineId} {m : MeterNumber} {d : Decay} (h : Store.RowsBetween s.store) :
    (s.itemRead e m d).RowsLawful := by
  have hr := readMeter_rowsBetween s m d h
  unfold State.itemRead
  split
  · exact finishOp_rows h
  · split
    · exact finishOp_rows h
    · split <;> rename_i ht <;> rw [ht] at hr
      · exact refuseItem_rows (finishOp_rows hr)
      · exact refuseItem_rows (finishOp_rows hr)
      · exact checkItem_rows (finishOp_rows hr)

theorem counterRead_rows {s : State} {lane : LaneId} {q : CounterQuery} {d : Decay} (h : Store.RowsBetween s.store) :
    (s.counterRead lane q d).RowsLawful := by
  have hr := readMeter_rowsBetween s q.meter d h
  unfold State.counterRead
  split <;> rename_i ht <;> rw [ht] at hr
  · exact finished_rows hr
  · unfold State.counterReply
    repeat' split
    all_goals exact finished_rows hr

/-- The row that an ENROL or RESTORE took is ALLOCATED, and its meter is not indexed (R11, R17). -/
theorem takenRow_allocated {s : State} {op : RecordOp} {n : Nat} {m : MeterNumber} (h : s.RowsLawful)
    (hc : s.current = some (.record op)) (hn : s.takenRow = some n) (hm : (RowOp.record op).newMeter = some m) :
    s.store.condition n = .allocated ∧ s.store.rowOf m = none := by
  obtain ⟨o, ho, hop⟩ := Option.map_eq_some_iff.1 hc
  have hrow : o.row = some n := by simpa [State.takenRow, ho] using hn
  obtain ⟨hall, hnew⟩ := h.2.2.1 o n ho hrow
  exact ⟨hall, hnew m (by rw [hop]; exact hm)⟩

theorem enrolRecord_rows {s : State} {f : EnrolFields} (h : s.RowsLawful) (hc : s.current = some (.record (.enrol f))) :
    (s.enrolRecord f s.takenRow).RowsLawful := by
  unfold State.enrolRecord
  split
  · rename_i n hn
    obtain ⟨hall, hnew⟩ := takenRow_allocated h hc hn rfl
    exact finished_rows (create_rowsBetween h.between hnew (.inl hall))
  · split <;> exact finished_rows h.between

theorem purgeOrphan_rows {s : State} {n : Nat} (h : Store.RowsBetween s.store) : (s.purgeOrphan n).RowsLawful := by
  unfold State.purgeOrphan
  split
  · exact finished_rows h
  · rename_i ho
    split
    · exact finished_rows h
    · exact finished_rows (unlistOrphan_rowsBetween n (release_rowsBetween' n h (not_not.1 ho)))

theorem restoreRecord_rows {s : State} {f : RestoreFields} {d : Decay} (h : s.RowsLawful)
    (hc : s.current = some (.record (.restore f))) : (s.restoreRecord f s.takenRow d).RowsLawful := by
  unfold State.restoreRecord
  split
  · exact finished_rows h.between
  · exact restoreIndexed_rows h.between
  · rename_i hm _
    split
    · exact finished_rows h.between
    · rename_i ho
      split
      · exact finished_rows h.between
      · exact restoreOrphan_rows h.between hm (not_not.1 ho)
  · rename_i n _ _ hn
    obtain ⟨hall, hnew⟩ := takenRow_allocated h hc hn rfl
    exact finished_rows (create_rowsBetween h.between hnew (.inl hall))
  · exact finished_rows h.between

theorem recordDone_rows {s : State} {op : RecordOp} {d : Decay} (h : s.RowsLawful) (hc : s.current = some (.record op)) :
    (s.recordDone op s.takenRow d).RowsLawful := by
  cases op with
  | enrol f => exact enrolRecord_rows h hc
  | amend f => exact edit_rows h.between
  | retire m => exact edit_rows h.between
  | reinstate m => exact edit_rows h.between
  | purge m => exact purge_rows h.between
  | purgeRow n => exact purgeOrphan_rows h.between
  | restore f => exact restoreRecord_rows h hc

theorem scrubbed_rows {s : State} {id : RowId} {d : Decay} (h : Store.RowsBetween s.store) :
    (s.scrubbed id d).RowsLawful := by
  unfold State.scrubbed
  split
  · refine scrub_rows (finishOp_rows ?_) rfl
    show Store.RowsBetween (s.scrubFindings _ d).store
    unfold State.scrubFindings
    split
    · exact readRecordRow_rowsBetween _ d h ‹_›
    · exact rowsBetween_congr h rfl rfl rfl rfl rfl rfl
  · exact scrub_rows (finishOp_rows (readOrFault_rowsBetween s _ d true h)) rfl

theorem commitCleared_rows {s : State} {e : EngineId} (h : Store.RowsBetween s.store) : (s.commitCleared e).RowsLawful := by
  have cleared : ({ s with memory := s.memory.writeCommit e none } : State).finishOp.RowsLawful := finishOp_rows h
  unfold State.commitCleared
  dsimp only
  split
  · split
    · exact endItem_rows (congr_rows cleared (by simp))
    · exact cleared
  · exact cleared

/-- Start-up's operation over, its next is placed (R166 to R169). -/
theorem started_rows {s t : State} {op next : RowOp} (h : s.RowsLawful) (hc : s.current = some op)
    (hs : op.startupStep.isSome) (hn : ∀ n, op ≠ .scan n) (hb : Store.RowsBetween t.store)
    (hw : t.store.waiting = s.store.waiting) (ht : ∀ k, t.store.condition k = s.store.condition k) :
    (t.finishOp.place next).RowsLawful := by
  refine place_start (finishOp_rows hb) (fun o ho => ?_) fun k _ => finish_cond t k hb ?_
  · rw [finish_ops, hw, ← finish_ops] at ho
    exact noStart_after h.2.2.2 hc hs o ho
  · rw [ht]
    exact h.2.2.2.2 op (by rw [ops_current hc]; exact List.mem_cons_self) hs k fun n hk => absurd hk (hn n)

theorem readOrFault_store_eq (s : State) (id : RowId) (d : Decay) (b : Bool) :
    ∃ n, (s.readOrFault id d b).store = s.store.countErrors n := by
  unfold State.readOrFault
  split <;> exact ⟨_, rfl⟩

theorem officeRowRead_rows {s : State} {id : RowId} {d : Decay} (h : s.RowsLawful)
    (hc : s.current = some (.startOffice id)) : (s.officeRowRead id d).RowsLawful := by
  obtain ⟨n, hr⟩ := readOrFault_store_eq s id d false
  have hb := readOrFault_rowsBetween s id d false h.between
  have next : ∀ op, ((s.readOrFault id d false).finishOp.place op).RowsLawful := fun op =>
    started_rows h hc rfl (fun _ => nofun) hb (by rw [hr]; rfl) (fun k => by rw [hr]; rfl)
  unfold State.officeRowRead
  dsimp only
  split
  · exact finishOp_rows hb
  · split
    · exact next _
    · have finished := finishOp_rows hb
      refine place_start (s := State.unitsTakeValues _) (rowsLawful_congr finished rfl rfl rfl rfl rfl rfl) (fun o ho => ?_)
        fun k _ => ?_
      · refine noStart_after h.2.2.2 hc rfl o ?_
        rw [finish_ops]
        have hops : (s.readOrFault id d false).finishOp.store.operations = s.store.waiting := by rw [finish_ops, hr]; rfl
        rw [← hops]
        exact ho
      · refine finish_cond (s.readOrFault id d false) k hb ?_
        rw [hr]
        exact h.2.2.2.2 _ (by rw [ops_current hc]; exact List.mem_cons_self) rfl k fun n hn => by cases hn

theorem commitRowRead_rows {s : State} {e : EngineId} {d : Decay} (h : s.RowsLawful)
    (hc : s.current = some (.startCommit e)) : (s.commitRowRead e d).RowsLawful := by
  obtain ⟨n, hr⟩ := readOrFault_store_eq s (.commit e) d false
  have hb := readOrFault_rowsBetween s (.commit e) d false h.between
  have next : ∀ op, ((s.readOrFault (.commit e) d false).finishOp.place op).RowsLawful := fun op =>
    started_rows h hc rfl (fun _ => nofun) hb (by rw [hr]; rfl) (fun k => by rw [hr]; rfl)
  unfold State.commitRowRead
  dsimp only
  split
  · exact finishOp_rows hb
  · split <;> exact next _

theorem rollMeterWritten_rows {s : State} {e : EngineId} {m : Marker} (h : s.RowsLawful)
    (hc : s.current = some (.rollMeter e m)) : (s.rollMeterWritten e m).RowsLawful := by
  have next : ∀ op, ((s.writeRecord m.row m.image).finishOp.place op).RowsLawful := fun op =>
    started_rows h hc rfl (fun _ => nofun) h.between rfl fun _ => rfl
  unfold State.rollMeterWritten
  dsimp only
  split <;> exact next _

theorem checkOverdue_low_rows {t : State} (h : t.RowsLawful) : t.enterReady.RowsLawful :=
  enterReady_ind (P := State.RowsLawful) (congr_rows h rfl) (fun _ ht => congr_rows ht rfl) (fun _ ht => checkOverdue_rows ht)
    (fun _ ht => congr_rows ht rfl)

theorem rowScanned_rows {s : State} {n : Nat} {d : Decay} (h : s.RowsLawful) (hc : s.current = some (.scan n)) :
    (s.rowScanned n d).RowsLawful := by
  have hscan := scanFindings_scanned d h hc
  have hwait : (s.scanFindings n d).store.waiting = s.store.waiting := (scanFindings_ops s n d).waiting
  have hstart : ∀ o ∈ s.store.waiting, o.startupStep = none := fun o ho =>
    noStart_after h.2.2.2 hc rfl o (by rw [finish_ops]; exact ho)
  have hb := scanned_between hscan (by rw [hwait]; exact hstart)
  have finished : (s.scanFindings n d).finishOp.RowsLawful := finishOp_forgets (s.scanFindings n d) ▸ finishOp_rows hb
  unfold State.rowScanned
  dsimp only
  split
  · refine place_start finished (fun o ho => hstart o ?_) fun k hk => ?_
    · rw [← hwait, ← finish_ops]
      exact ho
    · rw [← finishOp_forgets]
      exact finish_cond _ k hb (hscan.2 k (hk (n + 1) rfl))
  · exact checkOverdue_low_rows finished

/-- The completion of any operation keeps the law of the rows. -/
theorem completion_rows {s : State} {d : Decay} {op : RowOp} (h : s.RowsLawful) (hc : s.current = some op) :
    (s.completion d op).RowsLawful := by
  have hb := h.between
  cases op with
  | itemRead e m => exact itemRead_rows hb
  | counterRead lane q => exact counterRead_rows hb
  | record op => exact recordDone_rows h hc
  | scrub id => exact scrubbed_rows hb
  | commitMarker e m => exact place_rows (finishOp_rows hb) rfl
  | commitMeter e m => exact place_rows (finishOp_rows (commitRow_rowsBetween m.row m.image.meter hb)) rfl
  | commitClear e => exact commitCleared_rows hb
  | office w =>
    cases w with
    | grant amount serial => exact finished_rows hb
    | closeDay => exact finished_rows (settleMinute_rows h).between
    | closeMonth => exact finished_rows hb
    | dayAge => exact finishOp_rows hb
    | commit e m =>
      exact place_rows (finishOp_rows (rowsBetween_store hb (by simp))) rfl
    | rollForward e m => exact started_rows h hc rfl (fun _ => nofun) hb rfl fun _ => rfl
    | setOffice st =>
      have taken : ({ s.officeWritten with settings := st } : State).finishOp.RowsLawful := finishOp_rows hb
      have checked : ∀ t : State, t.RowsLawful → (if st.dayLimit ≠ s.settings.dayLimit then t.checkOverdue else t).RowsLawful :=
        fun t ht => by
          split
          · exact checkOverdue_rows ht
          · exact ht
      obtain ⟨ev, he⟩ := noteAuthority_eq s (if st.dayLimit ≠ s.settings.dayLimit then
        ({ s.officeWritten with settings := st } : State).finishOp.checkOverdue
        else ({ s.officeWritten with settings := st } : State).finishOp)
      exact respond_rows (congr_rows (checked _ taken) (by rw [he]))
    | setAlarm exponent count => exact finished_rows (rowsBetween_congr hb rfl rfl rfl rfl rfl rfl)
  | setTariff row bank => exact finished_rows hb
  | clearTariff row => exact finished_rows hb
  | loadKey slot k => exact finished_rows hb
  | dropKey slot g => exact finished_rows hb
  | setLane named given namesEngine => exact finished_rows hb
  | startOffice id => exact officeRowRead_rows h hc
  | startCommit e => exact commitRowRead_rows h hc
  | rollMeter e m => exact rollMeterWritten_rows h hc
  | rollClear e => exact started_rows h hc rfl (fun _ => nofun) hb rfl fun _ => rfl
  | scan n => exact rowScanned_rows h hc

/-! ### Every step -/

theorem dispatchTo_rows {s : State} {e : EngineId} {l : LaneId} (h : s.RowsLawful) : (s.dispatchTo e l).RowsLawful := by
  unfold State.dispatchTo
  split
  · exact h
  · exact startItem_rows (congr_rows h rfl)

theorem receiveToken_rows {s : State} {e : EngineId} {t : Token} (h : s.RowsLawful) : (s.receiveToken e t).RowsLawful := by
  unfold State.receiveToken
  split
  · exact continueTokens_rows h
  · exact h

theorem grantVerified_rows {s : State} {f : GrantFields} (h : s.RowsLawful) : (s.grantVerified f).RowsLawful := by
  have done : s.completeCipher.RowsLawful := congr_rows h rfl
  unfold State.grantVerified
  dsimp only
  split
  · exact respond_rows done
  · split
    · exact respond_rows done
    · exact place_rows done rfl

theorem loadKeyVerified_rows {s : State} {f : LoadKeyFields} (h : s.RowsLawful) : (s.loadKeyVerified f).RowsLawful := by
  have done : s.completeCipher.RowsLawful := congr_rows h rfl
  unfold State.loadKeyVerified
  dsimp only
  split
  · exact respond_rows done
  · split
    · exact respond_rows done
    · split
      · exact respond_rows done
      · exact place_rows (congr_rows done rfl) rfl

theorem restoreVerified_rows {s : State} {f : RestoreFields} (h : s.RowsLawful) : (s.restoreVerified f).RowsLawful := by
  have done : s.completeCipher.RowsLawful := congr_rows h rfl
  unfold State.restoreVerified
  split
  · exact consultLocks_rows done
  · exact respond_rows done

theorem placeScrub_rows {s : State} {id : RowId} (h : s.RowsLawful) : (s.placeScrub id).RowsLawful :=
  place_rows (scrub_rows h rfl) rfl

theorem deriveSupply_rows {s : State} (h : s.RowsLawful) : s.deriveSupply.RowsLawful := by
  unfold State.deriveSupply
  dsimp only
  split
  · exact h
  · exact congr_rows h rfl

/-- After a reset no row is determined, and start-up's first read is the one operation (R166). -/
theorem restart_rows (s : State) (m : RecordMemory) : (s.restart m).RowsLawful := by
  have noRow : ∀ k, (s.restart m).store.condition k = .undetermined := fun _ => rfl
  have noEntry : ∀ k, (s.restart m).store.rowOf k = none := fun _ => rfl
  refine ⟨.nil, ⟨fun k n hk => ?_, fun k j n hk => ?_, fun n hn => ?_, fun n => ?_, nofun⟩, fun o n ho hn => ?_, ?_,
    fun o _ _ k _ => noRow k⟩
  · rw [noEntry] at hk; cases hk
  · rw [noEntry] at hk; cases hk
  · rw [noRow] at hn; cases hn
  · rw [noRow]; exact ⟨nofun, nofun⟩
  · cases ho; cases hn
  · exact Nat.le_refl 1

theorem pulse_store (s : State) : s.pulse.store = s.store := by
  unfold State.pulse
  dsimp only
  split <;> rfl

/-- Every step keeps the law of the rows. -/
theorem stepped_rows {s t : State} (g : s.Stepped t) (h : s.RowsLawful) : t.RowsLawful := by
  cases g with
  | idle => exact h
  | requested t g _ => exact requested_rows h g
  | unknownLane hd code => exact congr_rows h rfl
  | replyRead r => exact congr_rows h rfl
  | ticked => exact congr_rows (settleTick_rows h) (pulse_store _)
  | expired lane => exact congr_rows h rfl
  | minute => exact settleMinute_rows h
  | supplied mainsOk pwrWarn => exact deriveSupply_rows (congr_rows h rfl)
  | restarted m => exact restart_rows s m
  | resetAsserted => exact congr_rows h rfl
  | dispatched e lane => exact dispatchTo_rows h
  | claimGranted c => exact grantClaim_rows (congr_rows h rfl)
  | supervisorRetaken op => exact consultLocks_rows (congr_rows h rfl)
  | monthAdvanced => exact congr_rows h rfl
  | rowPassed => exact scrub_rows h rfl
  | rowClaimed n m => exact placeScrub_rows (congr_rows h rfl)
  | rowVisited id => exact placeScrub_rows h
  | tokenComputed e m p t => exact receiveToken_rows (congr_rows h rfl)
  | grantVerified f => exact grantVerified_rows h
  | loadKeyVerified f => exact loadKeyVerified_rows h
  | restoreVerified f => exact restoreVerified_rows h
  | completed op d hc => exact completion_rows h hc

end Sys2Proof.Machine
end

section
/-! Proofs: the completions of the store's operations, by what they leave alone: the work in hand, the lanes and the units. -/
namespace Sys2Proof.Machine

open Sys2Proof

/-- The work in hand, the lanes and the link stand. -/
structure State.SameHands (s t : State) : Prop where
  inProgress : t.store.inProgress = s.store.inProgress
  waiting : t.store.waiting = s.store.waiting
  engines : t.engines = s.engines
  locks : t.locks = s.locks
  cipher : t.cipher = s.cipher
  exchange : t.exchange = s.exchange
  lanes : t.lanes = s.lanes

/-- Meter rows, the store's tables and the event flags may differ: the work in hand and the units stand. -/
structure State.RowsOnly (s t : State) : Prop where
  hands : s.SameHands t
  units : SameUnits s t

theorem State.SameHands.refl (s : State) : s.SameHands s := ⟨rfl, rfl, rfl, rfl, rfl, rfl, rfl⟩

theorem State.SameHands.trans {s t u : State} (h : s.SameHands t) (g : t.SameHands u) : s.SameHands u :=
  ⟨g.1.trans h.1, g.2.trans h.2, g.3.trans h.3, g.4.trans h.4, g.5.trans h.5, g.6.trans h.6, g.7.trans h.7⟩

theorem State.RowsOnly.refl (s : State) : s.RowsOnly s := ⟨.refl s, .refl s⟩

theorem State.RowsOnly.trans {s t u : State} (h : s.RowsOnly t) (g : t.RowsOnly u) : s.RowsOnly u :=
  ⟨h.1.trans g.1, h.2.trans g.2⟩

/-- A change of the meter rows, the store's tables and the event flags. -/
theorem rowsOnly_of {s t : State} (hs : t.store.inProgress = s.store.inProgress) (hw : t.store.waiting = s.store.waiting)
    (ht : t = { s with store := t.store, memory := { s.memory with meters := t.memory.meters }, events := t.events }) :
    s.RowsOnly t := by
  rw [ht]
  exact ⟨⟨hs, hw, rfl, rfl, rfl, rfl, rfl⟩, ⟨.inl rfl, rfl, rfl, rfl, rfl, rfl, rfl, rfl, fun _ => rfl, fun _ => rfl, rfl⟩⟩

theorem State.SameHands.current {s t : State} (h : s.SameHands t) : t.current = s.current := by
  rw [State.current, State.current, h.inProgress]

theorem State.SameHands.work {k x} {s t : State} (h : s.SameHands t) (w : State.WorkExcept k x s) : State.WorkExcept k x t :=
  workExcept_same w h.engines h.locks h.cipher h.inProgress h.waiting h.exchange

/-! ### Reads and writes of meter rows -/

theorem readWords_rowsOnly (s : State) (n : Nat) (d : Decay) : s.RowsOnly (s.readWords n d) :=
  rowsOnly_of rfl rfl rfl

theorem makeOrphan_rowsOnly (s : State) (n : Nat) : s.RowsOnly (s.makeOrphan n) :=
  rowsOnly_of (makeOrphan_inP s n) (makeOrphan_wait s n) (makeOrphan_frame s n)

theorem markDamaged_rowsOnly (s : State) (n : Nat) : s.RowsOnly (s.markDamaged n) :=
  rowsOnly_of (markDamaged_inP s n) (markDamaged_wait s n) (by rw [markDamaged_memory]; exact markDamaged_frame s n)

theorem readRecordRow_rowsOnly (s : State) (n : Nat) (d : Decay) : s.RowsOnly (s.readRecordRow n d) := by
  have read := readWords_rowsOnly s n d
  unfold State.readRecordRow
  split
  · exact read.trans (makeOrphan_rowsOnly _ n)
  · exact read.trans (markDamaged_rowsOnly _ n)
  · exact read

theorem readMeter_rowsOnly (s : State) (m : MeterNumber) (d : Decay) : s.RowsOnly (s.readMeter m d).1 := by
  unfold State.readMeter
  split
  · exact .refl s
  · split
    · exact .refl s
    · split <;> exact readRecordRow_rowsOnly s _ d

theorem scrubFindings_rowsOnly (s : State) (n : Nat) (d : Decay) : s.RowsOnly (s.scrubFindings n d) := by
  unfold State.scrubFindings
  split
  · exact readRecordRow_rowsOnly s n d
  · exact readWords_rowsOnly s n d

theorem indexScanned_rowsOnly (s : State) (n : Nat) (m : MeterNumber) (lost : Bool) : s.RowsOnly (s.indexScanned n m lost) := by
  have indexed : s.RowsOnly { s with store := (s.store.setCondition n .record).indexMeter m n } := rowsOnly_of rfl rfl rfl
  unfold State.indexScanned
  dsimp only
  split
  · exact indexed.trans (markDamaged_rowsOnly _ n)
  · exact indexed

theorem scanFindings_rowsOnly (s : State) (n : Nat) (d : Decay) : s.RowsOnly (s.scanFindings n d) := by
  have read := readWords_rowsOnly s n d
  unfold State.scanFindings
  dsimp only
  split
  · exact read.trans (makeOrphan_rowsOnly _ n)
  · split
    · exact read.trans (rowsOnly_of rfl rfl rfl)
    · unfold State.scanRecord
      dsimp only
      split
      · exact read.trans (indexScanned_rowsOnly _ n _ _)
      · generalize laterRowWins _ _ = wins
        cases wins
        · exact read.trans (makeOrphan_rowsOnly _ n)
        · exact read.trans ((makeOrphan_rowsOnly _ _).trans (indexScanned_rowsOnly _ n _ _))

theorem writeRecord_rowsOnly (s : State) (n : Nat) (r : MeterRecord) : s.RowsOnly (s.writeRecord n r) :=
  rowsOnly_of rfl rfl rfl

theorem createRecord_rowsOnly (s : State) (n : Nat) (r : MeterRecord) : s.RowsOnly (s.createRecord n r) :=
  rowsOnly_of rfl rfl rfl

/-- A read of an office row or a commit row leaves its content, and at most puts the office in FAULT (R152). -/
theorem readPlainRow_rowsOnly (s : State) (id : RowId) (d : Decay) : s.RowsOnly (s.readPlainRow id d) := by
  refine ⟨⟨rfl, rfl, rfl, rfl, rfl, rfl, rfl⟩, ?_⟩
  have content : ∀ r, (s.memory.setRot id r).office.content = s.memory.office.content
      ∧ (∀ e, ((s.memory.setRot id r).commits.get e).content = (s.memory.commits.get e).content)
      ∧ ∀ i : SlotId, ((s.memory.setRot id r).keys[i]).content = (s.memory.keys[i]).content := by
    intro r
    cases id with
    | key j =>
      refine ⟨rfl, fun _ => rfl, fun i => ?_⟩
      show ((s.memory.keys.set j { s.memory.keys[j] with rot := r })[i]).content = _
      by_cases hij : i = j
      · subst hij
        simp
      · have : j.val ≠ i.val := fun e => hij (Fin.ext e.symm)
        simp [this]
    | commit f =>
      refine ⟨rfl, fun e => ?_, fun _ => rfl⟩
      show ((s.memory.commits.set f { s.memory.commits.get f with rot := r }).get e).content = _
      by_cases hef : e = f
      · subst hef
        simp
      · rw [Pair.get_set_other _ _ _ _ hef]
    | _ => exact ⟨rfl, fun _ => rfl, fun _ => rfl⟩
  obtain ⟨office, commits, keys⟩ := content (if 0 < ((s.memory.rot id).after d).lost then (s.memory.rot id).after d else {})
  exact ⟨.inl rfl, rfl, rfl, rfl, rfl, congrArg OfficeRow.granted office, congrArg OfficeRow.spent office,
    congrArg OfficeRow.commitCounts office, commits, keys, rfl⟩

theorem readOrFault_rowsOnly (s : State) (id : RowId) (d : Decay) (b : Bool) : s.RowsOnly (s.readOrFault id d b) := by
  have read := readPlainRow_rowsOnly s id d
  unfold State.readOrFault
  split
  · exact read.trans ⟨⟨rfl, rfl, rfl, rfl, rfl, rfl, rfl⟩,
      ⟨.inr (.inl rfl), rfl, rfl, rfl, rfl, rfl, rfl, rfl, fun _ => rfl, fun _ => rfl, rfl⟩⟩
  · exact read

/-! ### Completions that answer the request in hand -/

/-- The operation is over and its request is answered, after changes of the meter rows and the store's tables alone. -/
def State.RowsReplied (s t : State) : Prop :=
  ∃ u c b, s.RowsOnly u ∧ t = u.finishOp.respond c b

theorem rowsReplied {s u : State} {c : ResultCode} {b : ReplyBody} (h : s.RowsOnly u) :
    s.RowsReplied (u.finishOp.respond c b) :=
  ⟨u, c, b, h, rfl⟩

theorem counterRead_replied (s : State) (lane : LaneId) (q : CounterQuery) (d : Decay) :
    s.RowsReplied (s.counterRead lane q d) := by
  have read := readMeter_rowsOnly s q.meter d
  unfold State.counterRead
  split <;> rename_i ht <;> rw [ht] at read
  · exact rowsReplied read
  · unfold State.counterReply
    split
    · exact rowsReplied read
    · split <;> exact rowsReplied read
    · split <;> exact rowsReplied read

theorem editRecord_replied (s : State) (m : MeterNumber) (d : Decay) (edit : MeterRecord → Option MeterRecord) :
    s.RowsReplied (s.editRecord m d edit) := by
  have read := readMeter_rowsOnly s m d
  unfold State.editRecord
  split <;> rename_i ht <;> rw [ht] at read
  · exact rowsReplied read
  · split
    · exact rowsReplied (read.trans (writeRecord_rowsOnly _ _ _))
    · exact rowsReplied read

theorem purgeRecord_replied (s : State) (m : MeterNumber) (d : Decay) : s.RowsReplied (s.purgeRecord m d) := by
  have read := readMeter_rowsOnly s m d
  unfold State.purgeRecord
  split <;> rename_i ht <;> rw [ht] at read
  · exact rowsReplied read
  · split
    · exact rowsReplied (read.trans (rowsOnly_of rfl rfl rfl))
    · exact rowsReplied read

theorem enrolRecord_replied (s : State) (f : EnrolFields) (row : Option Nat) : s.RowsReplied (s.enrolRecord f row) := by
  unfold State.enrolRecord
  split
  · exact rowsReplied (createRecord_rowsOnly s _ _)
  · split <;> exact rowsReplied (.refl s)

/-- A row that leaves the orphan list. -/
theorem unlisted_rowsOnly {s u : State} (n : Nat) (h : s.RowsOnly u) :
    s.RowsOnly { u with store := u.store.unlistOrphan n } :=
  h.trans (rowsOnly_of (unlistOrphan_ops u.store n).1 (unlistOrphan_ops u.store n).2 rfl)

theorem purgeOrphan_replied (s : State) (n : Nat) : s.RowsReplied (s.purgeOrphan n) := by
  have freed : s.RowsOnly { s with memory := s.memory.writeFree n, store := s.store.release n } := rowsOnly_of rfl rfl rfl
  unfold State.purgeOrphan
  split
  · exact rowsReplied (.refl s)
  · split
    · exact rowsReplied (.refl s)
    · exact rowsReplied (unlisted_rowsOnly n freed)

theorem restoreRecord_replied (s : State) (f : RestoreFields) (row : Option Nat) (d : Decay) :
    s.RowsReplied (s.restoreRecord f row d) := by
  unfold State.restoreRecord
  split
  · exact rowsReplied (.refl s)
  · exact rowsReplied (rowsOnly_of rfl rfl rfl)
  · split
    · exact rowsReplied (.refl s)
    · split
      · exact rowsReplied (.refl s)
      · exact rowsReplied (unlisted_rowsOnly _ (rowsOnly_of rfl rfl rfl))
  · exact rowsReplied (createRecord_rowsOnly s _ _)
  · exact rowsReplied (.refl s)

theorem recordDone_replied (s : State) (op : RecordOp) (row : Option Nat) (d : Decay) :
    s.RowsReplied (s.recordDone op row d) := by
  cases op with
  | enrol f => exact enrolRecord_replied s f row
  | amend f => exact editRecord_replied s _ d _
  | retire m => exact editRecord_replied s _ d _
  | reinstate m => exact editRecord_replied s _ d _
  | purge m => exact purgeRecord_replied s m d
  | purgeRow n => exact purgeOrphan_replied s n
  | restore f => exact restoreRecord_replied s f row d

/-- The operation is over and its request is answered, the work in hand as it was before. -/
def State.Replied (s t : State) : Prop :=
  ∃ u c b, s.SameHands u ∧ t = u.finishOp.respond c b

theorem replied_of {s t u : State} {c : ResultCode} {b : ReplyBody} (e : t = u.finishOp.respond c b) (h : s.SameHands u) :
    s.Replied t :=
  ⟨u, c, b, h, e⟩

theorem replied_of_rows {s t : State} (h : s.RowsReplied t) : s.Replied t := by
  obtain ⟨u, c, b, hu, ht⟩ := h
  exact ⟨u, c, b, hu.hands, ht⟩

/-- How an operation that a request waits for completes; CLOSE_DAY takes a due minute step first, and SET_OFFICE checks the
overdue rule and the low mark after it (R133, R136, R142, R183). -/
theorem completion_replied {s : State} {d : Decay} {op : RowOp} (ha : op.answers = true) (hd : op ≠ .office .closeDay)
    (hs : ∀ st, op ≠ .office (.setOffice st)) : s.Replied (s.completion d op) := by
  cases op with
  | counterRead lane q => exact replied_of_rows (counterRead_replied s lane q d)
  | record o => exact replied_of_rows (recordDone_replied s o _ d)
  | setTariff row bank => exact replied_of rfl ⟨rfl, rfl, rfl, rfl, rfl, rfl, rfl⟩
  | clearTariff row => exact replied_of rfl ⟨rfl, rfl, rfl, rfl, rfl, rfl, rfl⟩
  | loadKey slot k => exact replied_of rfl ⟨rfl, rfl, rfl, rfl, rfl, rfl, rfl⟩
  | dropKey slot g => exact replied_of rfl ⟨rfl, rfl, rfl, rfl, rfl, rfl, rfl⟩
  | setLane named given names => exact replied_of rfl ⟨rfl, rfl, rfl, rfl, rfl, rfl, rfl⟩
  | office w =>
    cases w with
    | grant amount serial => exact replied_of rfl ⟨rfl, rfl, rfl, rfl, rfl, rfl, rfl⟩
    | closeMonth => exact replied_of rfl ⟨rfl, rfl, rfl, rfl, rfl, rfl, rfl⟩
    | setAlarm exponent count => exact replied_of rfl ⟨rfl, rfl, rfl, rfl, rfl, rfl, rfl⟩
    | closeDay => exact absurd rfl hd
    | setOffice st => exact absurd rfl (hs st)
    | _ => cases ha
  | _ => cases ha

end Sys2Proof.Machine
end

section
/-! Proofs: every step keeps the law of the lanes and of the in-flight lists (R74, R79, R80, R83, R89, R97, R102). -/
namespace Sys2Proof.Machine

open Sys2Proof

/-! ### Which request each engine has in hand -/

/-- The lane and tag of the request that an engine has in hand (R102). -/
def State.requestOf (s : State) (e : EngineId) : Option (LaneId × Tag) :=
  (s.busyEngine e).map fun b => (b.lane, b.tag)

theorem requestOf_engines {s t : State} (h : t.engines = s.engines) : t.requestOf = s.requestOf := by
  funext e
  rw [State.requestOf, State.requestOf, busyEngine_of_engines h]

theorem requestOf_busy {s : State} {e : EngineId} {b : BusyEngine} (h : s.busyEngine e = some b) :
    s.requestOf e = some (b.lane, b.tag) := by
  rw [State.requestOf, h]
  rfl

theorem requestOf_setEngine_busy (s : State) (e : EngineId) (b : BusyEngine) :
    (s.setEngine e (.busy b)).requestOf = Function.update s.requestOf e (some (b.lane, b.tag)) := by
  funext f
  by_cases h : f = e
  · subst h
    rw [Function.update_self, requestOf_busy (setEngine_busyEngine s f b)]
  · rw [Function.update_of_ne h, State.requestOf, setEngine_busyEngine_other s e f _ h, State.requestOf]

theorem requestOf_setEngine_resting (s : State) (e : EngineId) (p : Supply) :
    (s.setEngine e (restingEngine e p)).requestOf = Function.update s.requestOf e none := by
  funext f
  by_cases h : f = e
  · subst h
    rw [Function.update_self, State.requestOf, setEngine_resting_busyEngine]
    rfl
  · rw [Function.update_of_ne h, State.requestOf, setEngine_busyEngine_other s e f _ h, State.requestOf]

/-! ### The law inside a command -/

/-- The law of the lanes while the engines have the requests `hand` in hand. -/
structure State.LanesHold (hand : EngineId → Option (LaneId × Tag)) (s : State) : Prop where
  lawful : ∀ l, (s.lane l).Lawful
  zero : (s.lane 0).state = .closed ∨ (s.lane 0).state = .opened
  listed : ∀ e l t, (t, e) ∈ (s.lane l).inFlight ↔ hand e = some (l, t)
  once : ∀ l, (s.lane l).inFlight.Nodup

/-- The law of the lanes while engine `e` does the request `tag` of lane `l`, whatever its register shows. -/
abbrev State.LanesServe (s : State) (e : EngineId) (l : LaneId) (tag : Tag) : Prop :=
  s.LanesHold (Function.update s.requestOf e (some (l, tag)))

theorem lanesLawful_iff (s : State) : s.LanesLawful ↔ s.LanesHold s.requestOf := by
  constructor
  · rintro ⟨lawful, zero, engine, entry, once⟩
    refine ⟨lawful, zero, fun e l t => ⟨fun h => ?_, fun h => ?_⟩, once⟩
    · obtain ⟨b, hb, rfl, rfl⟩ := entry l t e h
      exact requestOf_busy hb
    · obtain ⟨b, hb, hlt⟩ := Option.map_eq_some_iff.1 h
      cases hlt
      exact engine e b hb
  · rintro ⟨lawful, zero, listed, once⟩
    refine ⟨lawful, zero, fun e b hb => (listed e b.lane b.tag).2 (requestOf_busy hb), fun l t e h => ?_, once⟩
    obtain ⟨b, hb, hlt⟩ := Option.map_eq_some_iff.1 ((listed e l t).1 h)
    cases hlt
    exact ⟨b, hb, rfl, rfl⟩

theorem lanesHold_kept {hand} {s t : State} (h : s.LanesHold hand) (k : s.LanesKept t) : t.LanesHold hand := by
  obtain ⟨lawful, zero, listed, once⟩ := h
  refine ⟨fun l => (k l).1 (lawful l), (k 0).2.2 rfl zero, fun e l g => ?_, fun l => ?_⟩
  · rw [(k l).2.1]
    exact listed e l g
  · rw [(k l).2.1]
    exact once l

/-- The lanes' contexts change lawfully and the engines keep their requests. -/
theorem lanesLawful_kept {s t : State} (h : s.LanesLawful) (k : s.LanesKept t) (e : t.requestOf = s.requestOf) :
    t.LanesLawful := by
  rw [lanesLawful_iff, e]
  exact lanesHold_kept ((lanesLawful_iff s).1 h) k

theorem lanesServe_kept {s t : State} {e : EngineId} {l : LaneId} {tag : Tag} (h : s.LanesServe e l tag) (k : s.LanesKept t)
    (he : t.engines = s.engines) : t.LanesServe e l tag := by
  unfold State.LanesServe
  rw [requestOf_engines he]
  exact lanesHold_kept h k

theorem lanesServe_busy {s : State} {e : EngineId} {b : BusyEngine} (h : s.LanesLawful) (hb : s.busyEngine e = some b) :
    s.LanesServe e b.lane b.tag := by
  unfold State.LanesServe
  rw [← requestOf_busy hb, Function.update_eq_self]
  exact (lanesLawful_iff s).1 h

/-! ### Engines take and end requests -/

theorem setEngine_lanesLawful {s : State} {e : EngineId} {b : BusyEngine} (h : s.LanesServe e b.lane b.tag) :
    (s.setEngine e (.busy b)).LanesLawful := by
  rw [lanesLawful_iff, requestOf_setEngine_busy]
  exact lanesHold_kept h (lanesKept_of_lanes rfl)

/-- A claim changes neither a lane nor which request an engine does (R110). -/
theorem grantClaim_requestOf (s : State) (e : EngineId) (m : MeterNumber) : (s.grantClaim e m).requestOf = s.requestOf := by
  unfold State.grantClaim
  dsimp only
  split
  · rename_i b hb
    rw [requestOf_engines (place_engines _ _), requestOf_setEngine_busy]
    exact (congrArg (Function.update s.requestOf e) (requestOf_busy hb).symm).trans (Function.update_eq_self e _)
  · rfl

theorem grantClaim_lanesLawful {s : State} (e : EngineId) (m : MeterNumber) (h : s.LanesLawful) :
    (s.grantClaim e m).LanesLawful :=
  lanesLawful_kept h (lanesKept_of_lanes (grantClaim_lanes s e m)) (grantClaim_requestOf s e m)

theorem claim_lanesLawful {s : State} (e : EngineId) (m : MeterNumber) (h : s.LanesLawful) : (s.claim e m).LanesLawful := by
  unfold State.claim
  split
  · exact grantClaim_lanesLawful e m h
  · exact lanesLawful_kept h (lanesKept_of_lanes rfl) rfl

/-- A lane with the request on its in-flight list takes its result: the list loses an entry, a buffer fills (R97, R98). -/
theorem placeResult_lawful {x : Lane} {e : EngineId} {r : VendResult} (h : x.Lawful) (hm : (r.tag, e) ∈ x.inFlight) :
    (x.placeResult e r).Lawful := by
  obtain ⟨hcount, hqueue, htags, hflight, hback, hlock, hexpiry, hbarred, hclosed⟩ := h
  have shorter : (x.inFlight.filter (· != (r.tag, e))).length < x.inFlight.length :=
    List.length_filter_lt_length_iff_exists.2 ⟨_, hm, by simp⟩
  have notClosed : x.state ≠ .closed := fun hs => by
    have hq := (hclosed hs).1
    simp only [Lane.quiet, Bool.and_eq_true, List.isEmpty_iff] at hq
    rw [hq.1.1.2] at hm
    cases hm
  unfold Lane.placeResult
  dsimp only
  split
  · rename_i hf
    have hf := Option.isNone_iff_eq_none.1 hf
    refine ⟨hcount, hqueue, htags, ?_, fun _ => rfl, hlock, hexpiry, hbarred, fun hs => absurd hs notClosed⟩
    simp only [Lane.waitingResults, hf, Option.isSome_none, Bool.toNat_false] at hflight ⊢
    simp only [Option.isSome_some, Bool.toNat_true]
    omega
  · rename_i hf
    have hf : x.foreground.isSome = true := by simpa [Option.isSome_iff_ne_none] using hf
    refine ⟨hcount, hqueue, htags, ?_, fun _ => hf, hlock, hexpiry, hbarred, fun hs => absurd hs notClosed⟩
    simp only [Lane.waitingResults] at hflight ⊢
    simp only [Option.isSome_some, Bool.toNat_true]
    omega

theorem placeResult_inFlight (x : Lane) (e : EngineId) (r : VendResult) :
    (x.placeResult e r).inFlight = x.inFlight.filter (· != (r.tag, e)) := by
  unfold Lane.placeResult
  dsimp only
  split <;> rfl

theorem placeResult_state (x : Lane) (e : EngineId) (r : VendResult) : (x.placeResult e r).state = x.state := by
  unfold Lane.placeResult
  dsimp only
  split <;> rfl

/-- The lanes' law when one lane's context is replaced and one engine takes another request in hand, or none. -/
theorem lanesHold_updateLane {hand} {s : State} {e : EngineId} {l : LaneId} {f : Lane → Lane} {q : Option (LaneId × Tag)}
    (h : s.LanesHold hand) (hl : (f (s.lane l)).Lawful) (hz : (f (s.lane l)).state = (s.lane l).state)
    (hn : (f (s.lane l)).inFlight.Nodup)
    (hm : ∀ g k t, (t, g) ∈ ((s.updateLane l f).lane k).inFlight ↔ Function.update hand e q g = some (k, t)) :
    (s.updateLane l f).LanesHold (Function.update hand e q) := by
  obtain ⟨lawful, zero, -, once⟩ := h
  refine ⟨fun k => ?_, ?_, hm, fun k => ?_⟩
  · by_cases hk : k = l
    · subst hk
      rw [updateLane_lane]
      exact hl
    · rw [updateLane_lane_other s l k f hk]
      exact lawful k
  · by_cases hk : (0 : LaneId) = l
    · subst hk
      rw [updateLane_lane, hz]
      exact zero
    · rw [updateLane_lane_other s l 0 f hk]
      exact zero
  · by_cases hk : k = l
    · subst hk
      rw [updateLane_lane]
      exact hn
    · rw [updateLane_lane_other s l k f hk]
      exact once k

theorem endRequest_lanesLawful {s : State} {e : EngineId} {b : BusyEngine} (h : s.LanesServe e b.lane b.tag) :
    (s.endRequest e b).LanesLawful := by
  have listed := h.listed
  have entry : (b.tag, e) ∈ (s.lane b.lane).inFlight := (listed e _ _).2 (Function.update_self _ _ _)
  unfold State.endRequest
  rw [lanesLawful_iff, requestOf_setEngine_resting]
  have rest : (Function.update (s.updateLane b.lane (·.placeResult e ⟨b.tag, b.outcomes⟩)).requestOf e none)
      = Function.update (Function.update s.requestOf e (some (b.lane, b.tag))) e none := by
    rw [Function.update_idem]
    rfl
  rw [rest]
  refine lanesHold_kept (s := s.updateLane b.lane (·.placeResult e ⟨b.tag, b.outcomes⟩))
    (lanesHold_updateLane h (placeResult_lawful (h.lawful _) entry) (placeResult_state _ _ _) ?_ ?_) (lanesKept_of_lanes rfl)
  · rw [placeResult_inFlight]
    exact (h.once _).filter _
  · intro g k t
    by_cases hk : k = b.lane
    · subst hk
      rw [updateLane_lane, placeResult_inFlight, List.mem_filter, listed g b.lane t]
      by_cases hg : g = e
      · subst hg
        simp only [Function.update_self, Option.some.injEq, Prod.mk.injEq, true_and, bne_iff_ne, ne_eq, reduceCtorEq,
          iff_false]
        exact fun ⟨ht, hne⟩ => hne ⟨ht.symm, trivial⟩
      · simp [hg]
    · rw [updateLane_lane_other s _ k _ hk, listed g k t]
      by_cases hg : g = e
      · subst hg
        simp only [Function.update_self, Option.some.injEq, Prod.mk.injEq, reduceCtorEq, iff_false, not_and]
        exact fun hl => absurd hl.symm hk
      · simp [Function.update_of_ne hg]

theorem startItem_lanesLawful {s : State} {e : EngineId} {b : BusyEngine} (h : s.LanesServe e b.lane b.tag) :
    (s.startItem e b).LanesLawful := by
  unfold State.startItem
  split
  · exact claim_lanesLawful e _ (setEngine_lanesLawful h)
  · exact endRequest_lanesLawful h

theorem endItem_lanesLawful {s : State} {e : EngineId} {b : BusyEngine} {o : ItemOutcome} (h : s.LanesServe e b.lane b.tag) :
    (s.endItem e b o).LanesLawful := by
  unfold State.endItem
  dsimp only
  split
  · exact endRequest_lanesLawful h
  · split
    · exact endRequest_lanesLawful h
    · exact startItem_lanesLawful h

theorem reportRefused_kept (s : State) (l : LaneId) (c : RefusalCode) : s.LanesKept (s.reportRefused l c) := by
  have told := updateLane_kept (s := s) (l := l)
    (f := fun x => { x with tally := { x.tally with refused := tallyCount (x.tally.refused + 1) } }) (idleTally_kept _ l _ _)
  unfold State.reportRefused
  dsimp only
  split
  · exact (raiseCount_kept _ l 1).after told
  · exact told

theorem refuseItem_lanesLawful {s : State} {e : EngineId} {b : BusyEngine} {c : RefusalCode}
    (h : s.LanesServe e b.lane b.tag) : (s.refuseItem e b c).LanesLawful :=
  endItem_lanesLawful (lanesServe_kept h ((reportRefused_kept _ _ _).after (lanesKept_of_lanes rfl)) (by simp))

theorem continueTokens_lanesLawful {s : State} {e : EngineId} {b : BusyEngine} (h : s.LanesServe e b.lane b.tag) :
    (s.continueTokens e b).LanesLawful := by
  unfold State.continueTokens
  split
  · exact lanesLawful_kept (setEngine_lanesLawful (b := { b with stage := .tokens }) h) (requestCipher_kept _ _)
      (requestOf_engines rfl)
  · exact lanesLawful_kept (setEngine_lanesLawful (b := { b with stage := .commit }) h) (place_kept _ _)
      (requestOf_engines (place_engines _ _))
  · exact setEngine_lanesLawful h

theorem checkItem_lanesLawful {s : State} {e : EngineId} {b : BusyEngine} (i : Item) (n : Nat) (r : MeterRecord)
    (h : s.LanesServe e b.lane b.tag) : (s.checkItem e b i n r).LanesLawful := by
  unfold State.checkItem
  split
  · exact refuseItem_lanesLawful h
  · split
    · exact refuseItem_lanesLawful h
    · split
      · exact refuseItem_lanesLawful h
      · exact continueTokens_lanesLawful (b := { b with stage := .tokens, work := _ })
          (lanesServe_kept h (lanesKept_of_lanes (by simp)) (by simp))

theorem receiveToken_lanesLawful {s : State} (e : EngineId) (t : Token) (h : s.LanesLawful) :
    (s.receiveToken e t).LanesLawful := by
  unfold State.receiveToken
  split
  · rename_i b hb
    have serve := lanesServe_busy h hb
    exact continueTokens_lanesLawful serve
  · exact h

theorem itemRead_lanesLawful {s : State} (e : EngineId) (m : MeterNumber) (d : Decay) (h : s.LanesLawful) :
    (s.itemRead e m d).LanesLawful := by
  have read := readMeter_rowsOnly s m d
  have finished : s.finishOp.LanesLawful :=
    lanesLawful_kept h (lanesKept_of_lanes (finishOp_lanes s)) (requestOf_engines (finishOp_engines s))
  unfold State.itemRead
  split
  · exact finished
  · rename_i b hb
    have serve : ∀ t : State, s.RowsOnly t → t.finishOp.LanesServe e b.lane b.tag := fun t ht =>
      lanesServe_kept (lanesServe_busy h hb) (lanesKept_of_lanes ((finishOp_lanes t).trans ht.hands.lanes))
        ((finishOp_engines t).trans ht.hands.engines)
    split
    · exact finished
    · split <;> rename_i ht <;> rw [ht] at read
      · exact refuseItem_lanesLawful (serve _ read)
      · exact refuseItem_lanesLawful (serve _ read)
      · exact checkItem_lanesLawful _ _ _ (serve _ read)

theorem clearReserved_requestOf (s : State) (e : EngineId) : (s.clearReserved e).requestOf = s.requestOf := by
  unfold State.clearReserved
  split
  · rename_i b hb
    rw [requestOf_setEngine_busy]
    exact (congrArg (Function.update s.requestOf e) (requestOf_busy hb).symm).trans (Function.update_eq_self e _)
  · rfl

theorem officeRowWritten_lanesLawful {s : State} (e : EngineId) (m : Marker) (h : s.LanesLawful) :
    (s.officeRowWritten e m).LanesLawful := by
  unfold State.officeRowWritten
  refine lanesLawful_kept h (lanesKept_of_lanes (by simp)) ?_
  rw [requestOf_engines (place_engines _ _), requestOf_engines (finishOp_engines _), clearReserved_requestOf]
  rfl

theorem commitCleared_lanesLawful {s : State} (e : EngineId) (h : s.LanesLawful) : (s.commitCleared e).LanesLawful := by
  have finished : ({ s with memory := s.memory.writeCommit e none } : State).finishOp.LanesLawful :=
    lanesLawful_kept h (lanesKept_of_lanes (by simp)) (requestOf_engines (by simp))
  unfold State.commitCleared
  dsimp only
  split
  · split
    · refine endItem_lanesLawful (lanesServe_kept (lanesServe_busy finished ‹_›)
        ((updateLane_kept (reportDone_kept _ _ _ _)).after (lanesKept_of_lanes (by simp))) (by simp))
    · exact finished
  · exact finished

/-- A request that the dispatcher takes leaves the queue for the in-flight list (R105, R107). -/
theorem dispatched_lawful {x : Lane} {e : EngineId} {r : VendRequest} {rest : List VendRequest} (h : x.Lawful)
    (hq : x.queue = r :: rest) (ho : x.state = .opened) (hn : x.inFlight.length + x.waitingResults < 2) :
    { x with queue := rest, inFlight := x.inFlight ++ [(r.tag, e)] }.Lawful := by
  obtain ⟨hcount, hqueue, htags, -, hback, hlock, hexpiry, hbarred, hclosed⟩ := h
  rw [hq] at hqueue htags
  refine ⟨hcount, Nat.le_of_succ_le hqueue, (List.nodup_cons.1 htags).2, ?_, hback, hlock, hexpiry, fun hs => ?_, fun hs => ?_⟩
  · rw [List.length_append]
    simp only [Lane.waitingResults] at hn ⊢
    simp only [List.length_cons, List.length_nil]
    omega
  · exact absurd (ho.symm.trans hs) (by decide)
  · exact absurd (ho.symm.trans hs) (by decide)

theorem dispatchTo_lanesLawful {s : State} {e : EngineId} {l : LaneId} (h : s.LanesLawful) (he : s.eligible e l = true) :
    (s.dispatchTo e l).LanesLawful := by
  unfold State.eligible at he
  simp only [Bool.and_eq_true, beq_iff_eq, decide_eq_true_eq] at he
  obtain ⟨⟨⟨⟨⟨-, hidle⟩, hopen⟩, -⟩, hroom⟩, -⟩ := he
  have free : s.requestOf e = none := by rw [State.requestOf, State.busyEngine, hidle]; rfl
  have hold := (lanesLawful_iff s).1 h
  have unlisted : ∀ k t, (t, e) ∉ (s.lane k).inFlight := fun k t hm => by
    have := (hold.listed e k t).1 hm
    rw [free] at this
    cases this
  unfold State.dispatchTo
  split
  · exact h
  · rename_i r rest hq
    have taken : (s.updateLane l fun x => { x with queue := rest, inFlight := x.inFlight ++ [(r.tag, e)] }).LanesServe e l
        r.tag := by
      refine lanesHold_updateLane hold (dispatched_lawful (hold.lawful l) hq hopen hroom) rfl ?_ ?_
      · refine List.nodup_append.2 ⟨hold.once l, List.nodup_singleton _, fun a ha b hb hab => ?_⟩
        rw [List.mem_singleton] at hb
        subst hab hb
        exact unlisted _ _ ha
      · intro g k t
        by_cases hg : g = e
        · subst hg
          rw [Function.update_self]
          by_cases hk : k = l
          · subst hk
            rw [updateLane_lane]
            simp [unlisted, eq_comm]
          · rw [updateLane_lane_other s l k _ hk]
            simpa [unlisted] using fun hl : l = k => absurd hl.symm hk
        · rw [Function.update_of_ne hg]
          refine Iff.trans ?_ (hold.listed g k t)
          by_cases hk : k = l
          · subst hk
            rw [updateLane_lane]
            simp [hg]
          · rw [updateLane_lane_other s l k _ hk]
    exact startItem_lanesLawful (lanesHold_kept taken (lanesKept_of_lanes rfl))

/-! ### Supply, reset, requests -/

/-- An engine that is not BUSY takes no request in hand by following the supply (R104). -/
theorem follow_busyEngine {s t : State} {p : Supply} (h : t.engines = { s.engines with b := s.engines.b.follow p })
    (e : EngineId) : t.busyEngine e = s.busyEngine e := by
  unfold State.busyEngine
  rw [h]
  cases e with
  | a => rfl
  | b =>
    show (match s.engines.b.follow p with | .busy b => some b | _ => none)
      = (match s.engines.b with | .busy b => some b | _ => none)
    cases s.engines.b <;> by_cases hp : p = .mains <;> simp [Engine.follow, restingEngine, hp]

theorem follow_requestOf {s t : State} {p : Supply} (h : t.engines = { s.engines with b := s.engines.b.follow p }) :
    t.requestOf = s.requestOf := by
  funext e
  rw [State.requestOf, State.requestOf, follow_busyEngine h]

theorem deriveSupply_lanesLawful {s : State} (h : s.LanesLawful) : s.deriveSupply.LanesLawful := by
  unfold State.deriveSupply
  dsimp only
  split
  · exact h
  · exact lanesLawful_kept h (lanesKept_of_lanes rfl) (follow_requestOf rfl)

theorem restart_lanesLawful (s : State) (m : RecordMemory) : (s.restart m).LanesLawful := by
  have fresh : ∀ l, (s.restart m).lane l = {} := fun l => by simp [State.lane, State.restart]
  have idle : ∀ e, (s.restart m).busyEngine e = none := fun e => by cases e <;> rfl
  refine ⟨fun l => ?_, .inl (by rw [fresh]), fun e b hb => ?_, fun l t e ht => ?_, fun l => ?_⟩
  · rw [fresh]
    exact ⟨Nat.zero_le _, Nat.zero_le _, .nil, Nat.zero_le _, nofun, nofun, nofun, nofun, fun _ => ⟨rfl, rfl⟩⟩
  · rw [idle] at hb
    cases hb
  · rw [fresh] at ht
    cases ht
  · rw [fresh]
    exact .nil

theorem answered_requestOf {s t : State} (g : s.Answered t) : t.requestOf = s.requestOf := by
  cases g with
  | replied u c b hu => exact requestOf_engines ((respond_engines u c b).trans (by rw [hu]))
  | placed u op hu => exact requestOf_engines ((place_engines u op).trans (by rw [hu]))
  | consulted op => exact requestOf_engines (consultLocks_engines s op)
  | enciphered r => rfl
  | dropped i g => exact requestOf_engines (place_engines _ _)
  | enabled c b hd =>
    have off : s.requestOf .b = none := by rw [State.requestOf, State.busyEngine, Pair.get, hd]; rfl
    rw [requestOf_engines (respond_engines _ c b), requestOf_setEngine_resting, ← off, Function.update_eq_self]

theorem requested_requestOf {s t : State} (g : s.Requested t) : t.requestOf = s.requestOf := by
  cases g with
  | held => rfl
  | overlapped => exact requestOf_engines (discardFrame_engines s)
  | refused lane h u c b hi hu => exact requestOf_engines ((respond_engines u c b).trans (by rw [hu]; simp))
  | taken lane h t hi ho ht => exact (answered_requestOf ht).trans (requestOf_engines (by simp))

/-! ### Every completion, every step -/

theorem replied_lanesLawful {s t : State} (h : s.LanesLawful) (g : s.Replied t) : t.LanesLawful := by
  obtain ⟨u, c, b, hu, rfl⟩ := g
  exact lanesLawful_kept h ((respond_kept _ c b).after (lanesKept_of_lanes ((finishOp_lanes u).trans hu.lanes)))
    (requestOf_engines ((respond_engines _ c b).trans ((finishOp_engines u).trans hu.engines)))

theorem noteAuthority_lanesKept (s t : State) : t.LanesKept (State.noteAuthority s t) := by
  obtain ⟨ev, e⟩ := noteAuthority_eq s t
  rw [e]
  exact lanesKept_of_lanes rfl

theorem noteAuthority_sameEngines (s t : State) : (State.noteAuthority s t).engines = t.engines := by
  obtain ⟨ev, e⟩ := noteAuthority_eq s t
  rw [e]

theorem settleMinute_engines (s : State) : s.settleMinute.engines = s.engines := by
  unfold State.settleMinute
  split
  · exact minuteStep_engines s
  · rfl

theorem dayClosed_lanesLawful {s : State} (h : s.LanesLawful) : s.dayClosed.LanesLawful := by
  have minute : s.settleMinute.LanesLawful :=
    lanesLawful_kept h (settleMinute_kept s) (requestOf_engines (settleMinute_engines s))
  exact replied_lanesLawful minute (replied_of rfl ⟨rfl, rfl, rfl, rfl, rfl, rfl, rfl⟩)

theorem settingsWritten_lanesLawful {s : State} (st : OfficeSettings) (h : s.LanesLawful) :
    (s.settingsWritten st).LanesLawful := by
  unfold State.settingsWritten
  dsimp only
  refine lanesLawful_kept h (((respond_kept _ _ _).after (noteAuthority_lanesKept s _)).after (lanesKept_of_lanes ?_))
    (requestOf_engines ((respond_engines _ _ _).trans ((noteAuthority_sameEngines s _).trans ?_)))
  · split <;> simp
  · split <;> simp

/-- Neither a lane nor an engine takes part. -/
def State.Apart (s t : State) : Prop :=
  t.lanes = s.lanes ∧ t.engines = s.engines

theorem apart_lanesLawful {s t : State} (h : s.LanesLawful) (a : s.Apart t) : t.LanesLawful :=
  lanesLawful_kept h (lanesKept_of_lanes a.1) (requestOf_engines a.2)

theorem apart_finishOp {s t : State} (a : s.Apart t) : s.Apart t.finishOp :=
  ⟨(finishOp_lanes t).trans a.1, (finishOp_engines t).trans a.2⟩

theorem apart_place {s t : State} (op : RowOp) (a : s.Apart t) : s.Apart (t.place op) :=
  ⟨(place_lanes t op).trans a.1, (place_engines t op).trans a.2⟩

theorem apart_rowsOnly {s t : State} (h : s.RowsOnly t) : s.Apart t :=
  ⟨h.hands.lanes, h.hands.engines⟩

theorem scrubbed_apart (s : State) (id : RowId) (d : Decay) : s.Apart (s.scrubbed id d) := by
  have other : s.Apart (s.readOrFault id d true).finishOp := apart_finishOp (apart_rowsOnly (readOrFault_rowsOnly s id d true))
  unfold State.scrubbed
  split
  · rename_i n
    have found := apart_rowsOnly (scrubFindings_rowsOnly s n d)
    exact apart_finishOp (t := { s.scrubFindings n d with locks := _ }) found
  · exact other

theorem officeRowRead_apart (s : State) (id : RowId) (d : Decay) : s.Apart (s.officeRowRead id d) := by
  have read : s.Apart (s.readOrFault id d false).finishOp := apart_finishOp (apart_rowsOnly (readOrFault_rowsOnly s id d false))
  unfold State.officeRowRead
  dsimp only
  split
  · exact read
  · split
    · exact apart_place _ read
    · exact apart_place _ read

theorem commitRowRead_apart (s : State) (e : EngineId) (d : Decay) : s.Apart (s.commitRowRead e d) := by
  have read : s.Apart (s.readOrFault (.commit e) d false).finishOp :=
    apart_finishOp (apart_rowsOnly (readOrFault_rowsOnly s _ d false))
  unfold State.commitRowRead
  dsimp only
  split
  · exact read
  · split <;> exact apart_place _ read

theorem enterReady_apart (s : State) : s.Apart s.enterReady :=
  enterReady_ind (P := fun t => s.Apart t) ⟨rfl, rfl⟩ (fun _ h => h) (fun t h => ⟨(checkOverdue_lanes t).trans h.1,
    (checkOverdue_engines t).trans h.2⟩) (fun _ h => h)

theorem rowScanned_apart (s : State) (n : Nat) (d : Decay) : s.Apart (s.rowScanned n d) := by
  have found : s.Apart (s.scanFindings n d).finishOp := apart_finishOp (apart_rowsOnly (scanFindings_rowsOnly s n d))
  unfold State.rowScanned
  dsimp only
  split
  · exact apart_place _ found
  · exact ⟨(enterReady_apart _).1.trans found.1, (enterReady_apart _).2.trans found.2⟩

theorem rollMeterWritten_apart (s : State) (e : EngineId) (m : Marker) : s.Apart (s.rollMeterWritten e m) := by
  have written : s.Apart (s.writeRecord m.row m.image).finishOp := apart_finishOp ⟨rfl, rfl⟩
  unfold State.rollMeterWritten
  dsimp only
  split <;> exact apart_place _ written

theorem completion_lanesLawful {s : State} (d : Decay) (op : RowOp) (h : s.LanesLawful) : (s.completion d op).LanesLawful := by
  by_cases hd : op = .office .closeDay
  · subst hd
    exact dayClosed_lanesLawful h
  by_cases hs : ∃ st, op = .office (.setOffice st)
  · obtain ⟨st, rfl⟩ := hs
    exact settingsWritten_lanesLawful st h
  by_cases ha : op.answers = true
  · exact replied_lanesLawful h (completion_replied ha hd fun st e => hs ⟨st, e⟩)
  cases op with
  | itemRead e m => exact itemRead_lanesLawful e m d h
  | scrub id => exact apart_lanesLawful h (scrubbed_apart s id d)
  | commitMarker e m => exact apart_lanesLawful h (apart_place _ (apart_finishOp ⟨rfl, rfl⟩))
  | commitMeter e m => exact apart_lanesLawful h (apart_place _ (apart_finishOp ⟨rfl, rfl⟩))
  | commitClear e => exact commitCleared_lanesLawful e h
  | startOffice id => exact apart_lanesLawful h (officeRowRead_apart s id d)
  | startCommit e => exact apart_lanesLawful h (commitRowRead_apart s e d)
  | rollMeter e m => exact apart_lanesLawful h (rollMeterWritten_apart s e m)
  | rollClear e => exact apart_lanesLawful h (apart_place _ (apart_finishOp ⟨rfl, rfl⟩))
  | scan n => exact apart_lanesLawful h (rowScanned_apart s n d)
  | office w =>
    cases w with
    | dayAge => exact apart_lanesLawful h (apart_finishOp ⟨rfl, rfl⟩)
    | commit e m => exact officeRowWritten_lanesLawful e m h
    | rollForward e m => exact apart_lanesLawful h (apart_place _ (apart_finishOp ⟨rfl, rfl⟩))
    | _ => exact absurd rfl ha
  | _ => exact absurd rfl ha

theorem grantVerified_kept (s : State) (f : GrantFields) : s.LanesKept (s.grantVerified f) := by
  unfold State.grantVerified
  dsimp only
  split
  · exact (answer_kept _ _).after (lanesKept_of_lanes rfl)
  · split
    · exact (answer_kept _ _).after (lanesKept_of_lanes rfl)
    · exact (place_kept _ _).after (lanesKept_of_lanes rfl)

theorem grantVerified_engines (s : State) (f : GrantFields) : (s.grantVerified f).engines = s.engines := by
  unfold State.grantVerified
  dsimp only
  split
  · simp
  · split <;> simp

theorem loadKeyVerified_kept (s : State) (f : LoadKeyFields) : s.LanesKept (s.loadKeyVerified f) := by
  unfold State.loadKeyVerified
  dsimp only
  split
  · exact (answer_kept _ _).after (lanesKept_of_lanes rfl)
  · split
    · exact (answer_kept _ _).after (lanesKept_of_lanes rfl)
    · split
      · exact (answer_kept _ _).after (lanesKept_of_lanes rfl)
      · exact (place_kept _ _).after (lanesKept_of_lanes rfl)

theorem loadKeyVerified_engines (s : State) (f : LoadKeyFields) : (s.loadKeyVerified f).engines = s.engines := by
  unfold State.loadKeyVerified
  dsimp only
  split
  · simp
  · split
    · simp
    · split <;> simp

theorem restoreVerified_kept (s : State) (f : RestoreFields) : s.LanesKept (s.restoreVerified f) := by
  unfold State.restoreVerified
  split
  · exact (consultLocks_kept _ _).after (lanesKept_of_lanes rfl)
  · exact (answer_kept _ _).after (lanesKept_of_lanes rfl)

theorem restoreVerified_engines (s : State) (f : RestoreFields) : (s.restoreVerified f).engines = s.engines := by
  unfold State.restoreVerified
  split <;> simp

theorem pulse_sameEngines (s : State) : s.pulse.engines = s.engines := by
  unfold State.pulse
  dsimp only
  split <;> rfl

/-- Every step keeps the law of the lanes. -/
theorem stepped_lanes {s t : State} (g : s.Stepped t) (h : s.LanesLawful) : t.LanesLawful := by
  cases g with
  | idle => exact h
  | requested t g k => exact lanesLawful_kept h k (requested_requestOf g)
  | unknownLane hd code => exact h
  | replyRead r => exact h
  | ticked =>
    exact lanesLawful_kept h ((pulse_kept _).after (settleTick_kept s))
      (requestOf_engines ((pulse_sameEngines _).trans (settleTick_engines s)))
  | expired lane => exact lanesLawful_kept h (updateLane_kept (laneExpire_kept _ lane)) rfl
  | minute => exact lanesLawful_kept h (settleMinute_kept s) (requestOf_engines (settleMinute_engines s))
  | supplied mainsOk pwrWarn => exact deriveSupply_lanesLawful (s := { s with mainsOk := mainsOk, pwrWarn := pwrWarn }) h
  | restarted m => exact restart_lanesLawful s m
  | resetAsserted => exact h
  | dispatched e lane he => exact dispatchTo_lanesLawful h he
  | claimGranted c => exact grantClaim_lanesLawful (s := s.unqueued c) c.1 c.2 h
  | supervisorRetaken op =>
    exact lanesLawful_kept h ((consultLocks_kept _ op).after (lanesKept_of_lanes rfl))
      (requestOf_engines (consultLocks_engines s.supervisorFreed op))
  | monthAdvanced => exact h
  | rowPassed => exact h
  | rowClaimed n m => exact apart_lanesLawful h (apart_place _ ⟨rfl, rfl⟩)
  | rowVisited id => exact apart_lanesLawful h (apart_place _ ⟨rfl, rfl⟩)
  | tokenComputed e m p t => exact receiveToken_lanesLawful (s := s.completeCipher) e t h
  | grantVerified f => exact lanesLawful_kept h (grantVerified_kept s f) (requestOf_engines (grantVerified_engines s f))
  | loadKeyVerified f => exact lanesLawful_kept h (loadKeyVerified_kept s f) (requestOf_engines (loadKeyVerified_engines s f))
  | restoreVerified f => exact lanesLawful_kept h (restoreVerified_kept s f) (requestOf_engines (restoreVerified_engines s f))
  | completed op d => exact completion_lanesLawful d op h

end Sys2Proof.Machine
end

section
/-! Proofs: every step keeps the law of the work in hand (R72, R112, R118, R148, R174). -/
namespace Sys2Proof.Machine

open Sys2Proof

/-! ### Engines within the law -/

/-- The law reads the engines by what they hold alone. -/
theorem workExcept_busyEngine {k x} {s t : State} (h : State.WorkExcept k x s) (hb : ∀ e, t.busyEngine e = s.busyEngine e)
    (hl : t.locks = s.locks) (hc : t.cipher = s.cipher) (ho : t.store = s.store) (hx : t.exchange = s.exchange) :
    State.WorkExcept k x t := by
  have errands : t.errands = s.errands := by rw [State.errands, hl, hc, ho]; rfl
  have awaited : t.answersAwaited = s.answersAwaited := by rw [State.answersAwaited, hl, hc, ho]; rfl
  refine ⟨ho ▸ h.store, hc ▸ h.cipher, fun e => ?_, fun e b hn => ?_, ?_⟩
  · rw [errands, hb]
    exact h.errand e
  · rw [hb]
    exact h.busy e b hn
  · rw [awaited, isWorking_of hx]
    exact h.link

/-- A BUSY engine's working values change within its stage. -/
theorem setEngine_sameStage_work {k} {s : State} {e : EngineId} {b c : BusyEngine} (h : State.WorkExcept k none s)
    (hb : s.busyEngine e = some b) (hs : c.stage = b.stage) (hc : c.Lawful) :
    State.WorkExcept k none (s.setEngine e (.busy c)) := by
  refine ⟨h.store, h.cipher, fun f => ?_, fun f b' _ hf => ?_, h.link⟩
  · refine (h.errand f).trans ?_
    by_cases hfe : f = e
    · subst hfe
      rw [setEngine_busyEngine, hb, Option.map_some, Option.map_some, hs]
    · rw [setEngine_busyEngine_other s e f _ hfe]
  · by_cases hfe : f = e
    · subst hfe
      rw [setEngine_busyEngine] at hf
      cases hf
      exact hc
    · rw [setEngine_busyEngine_other s e f _ hfe] at hf
      exact h.busy f b' nofun hf

theorem dispatchTo_work {s : State} {e : EngineId} {l : LaneId} (h : s.WorkDone) (he : s.eligible e l = true) :
    (s.dispatchTo e l).WorkDone := by
  have free : s.busyEngine e = none := by
    unfold State.eligible at he
    simp only [Bool.and_eq_true, beq_iff_eq] at he
    obtain ⟨⟨⟨⟨⟨-, hidle⟩, -⟩, -⟩, -⟩, -⟩ := he
    rw [State.busyEngine, hidle]
  unfold State.dispatchTo
  split
  · exact h
  · exact startItem_work (workExcept_same (wake_work h free) rfl rfl rfl rfl rfl rfl)

/-- A BUSY engine that waits for the cipher has tokens to request, and its row, record and reservation (R118). -/
theorem lawful_tokens {b : BusyEngine} (h : b.Lawful) (hs : b.stage = .tokens) : ∃ i, b.items[b.item]? = some i
    ∧ b.work.slots.Nodup ∧ b.work.row.isSome ∧ b.work.record.isSome ∧ b.work.reserved = i.tender := by
  obtain ⟨i, hi, hd, hm⟩ := h
  rw [hs] at hm
  obtain ⟨-, hrow, hrec, hres⟩ := hm
  exact ⟨i, hi, hd, hrow, hrec, hres⟩

/-- A BUSY engine that waits for its read holds nothing yet (R114). -/
theorem lawful_read {b : BusyEngine} (h : b.Lawful) (hs : b.stage = .read) : ∃ i, b.items[b.item]? = some i
    ∧ b.work.reserved = 0 ∧ b.work.slots = [] := by
  obtain ⟨i, hi, -, hm⟩ := h
  rw [hs] at hm
  exact ⟨i, hi, hm.1, hm.2⟩

theorem tokenComputed_work {s : State} {e : EngineId} {m : MeterNumber} {p : PlannedToken} (t : Token) (h : s.WorkDone)
    (hb : s.cipher.busy = some (.token e m p)) : (s.completeCipher.receiveToken e t).WorkDone := by
  obtain ⟨b, hbusy, hs, hl, -⟩ := cipher_engine h hb rfl
  obtain ⟨i, hi, hd, hrow, hrec, hres⟩ := lawful_tokens hl hs
  have same : s.completeCipher.busyEngine e = some b := hbusy
  unfold State.receiveToken
  rw [same]
  exact continueTokens_work (complete_work_engine h hb rfl) hi hrow hrec hd hres

/-- What the completion of an engine's read meets: the engine waits for it, its item exists and it holds nothing. -/
theorem itemRead_engine {s : State} {e : EngineId} {m : MeterNumber} (h : s.WorkDone)
    (hc : s.current = some (.itemRead e m)) :
    ∃ b i, s.busyEngine e = some b ∧ b.items[b.item]? = some i ∧ b.work.reserved = 0 ∧ b.work.slots = [] := by
  obtain ⟨b, hbusy, hs, hl, -⟩ := current_engine h hc rfl
  obtain ⟨i, hi, hr, hd⟩ := lawful_read hl hs
  exact ⟨b, i, hbusy, hi, hr, hd⟩

theorem itemRead_work {s : State} {e : EngineId} {m : MeterNumber} (d : Decay) (h : s.WorkDone)
    (hc : s.current = some (.itemRead e m)) : (s.itemRead e m d).WorkDone := by
  have read := readMeter_rowsOnly s m d
  obtain ⟨b, i, hbusy, hi, hr, -⟩ := itemRead_engine h hc
  have finished : ∀ t : State, s.RowsOnly t → State.WorkExcept 0 (some e) t.finishOp := fun t ht =>
    finish_work_engine (ht.hands.work h) (ht.hands.current.trans hc) rfl rfl
  unfold State.itemRead
  simp only [hbusy, hi]
  split <;> rename_i ht <;> rw [ht] at read
  · exact refuseItem_work (finished _ read)
  · exact refuseItem_work (finished _ read)
  · exact checkItem_work (finished _ read) hi hr

/-! ### The four writes of a commit -/

/-- A write of a commit completes and the next one is placed for the same engine (R158). -/
theorem commitNext_work {t : State} {op next : RowOp} {e : EngineId} (h : t.WorkDone) (hc : t.current = some op)
    (ho : op.errand = some (e, .commit)) (ha : op.answers = false) (hn : next.errand = some (e, .commit))
    (hna : next.answers = false) : (t.finishOp.place next).WorkDone := by
  obtain ⟨b, hbusy, hs, hl, -⟩ := current_engine h hc ho
  exact place_work_engine (finish_work_engine h hc ho ha) hn hna
    ((busyEngine_of_engines (finishOp_engines t) e).trans hbusy) hs hl

theorem officeRowWritten_work {s : State} {e : EngineId} {m : Marker} (h : s.WorkDone)
    (hc : s.current = some (.office (.commit e m))) : (s.officeRowWritten e m).WorkDone := by
  obtain ⟨b, hbusy, hs, ⟨i, hi, hd, hm⟩, -⟩ := current_engine h hc rfl
  unfold State.officeRowWritten
  dsimp only
  rw [clearReserved_busy (b := b) (by exact hbusy)]
  refine commitNext_work (setEngine_sameStage_work (b := b) (workExcept_same h rfl rfl rfl rfl rfl rfl) hbusy rfl
    ⟨i, hi, hd, ?_⟩) hc rfl rfl rfl rfl
  rw [hs]
  trivial

theorem commitCleared_work {s : State} {e : EngineId} (h : s.WorkDone) (hc : s.current = some (.commitClear e)) :
    (s.commitCleared e).WorkDone := by
  obtain ⟨b, hbusy, hs, ⟨i, hi, -⟩, -⟩ := current_engine h hc rfl
  have finished : State.WorkExcept 0 (some e) ({ s with memory := s.memory.writeCommit e none } : State).finishOp :=
    finish_work_engine (workExcept_same h rfl rfl rfl rfl rfl rfl) (op := .commitClear e) hc rfl rfl
  have same : ({ s with memory := s.memory.writeCommit e none } : State).finishOp.busyEngine e = some b :=
    (busyEngine_of_engines (finishOp_engines _) e).trans hbusy
  unfold State.commitCleared
  simp only [same, hi]
  exact endItem_work (workExcept_congr finished (by simp) (by simp) (by simp) (by simp) (by simp) (by simp)
    (isWorking_of (by simp)))

/-! ### The other completions -/

theorem replied_work {s t : State} {op : RowOp} (h : s.WorkDone) (hc : s.current = some op) (ha : op.answers = true)
    (g : s.Replied t) : t.WorkDone := by
  obtain ⟨u, c, b, hu, rfl⟩ := g
  exact respond_work (link_done (hu.work h) (hu.current.trans hc) (answers_plain ha).2 ha)

theorem place_current {s : State} {op : RowOp} (next : RowOp) (hc : s.current = some op) :
    (s.place next).current = some op := by
  obtain ⟨o, ho, rfl⟩ := Option.map_eq_some_iff.1 hc
  unfold State.place
  rw [ho]
  exact hc

theorem settleMinute_current {s : State} {op : RowOp} (hc : s.current = some op) : s.settleMinute.current = some op := by
  unfold State.settleMinute State.minuteStep
  split
  · dsimp only
    split
    · exact place_current _ (by split <;> exact hc)
    · split <;> exact hc
  · exact hc

theorem dayClosed_work {s : State} (h : s.WorkDone) (hc : s.current = some (.office .closeDay)) : s.dayClosed.WorkDone :=
  replied_work (settleMinute_work h) (settleMinute_current hc) rfl (replied_of rfl ⟨rfl, rfl, rfl, rfl, rfl, rfl, rfl⟩)

theorem settingsWritten_work {s : State} {st : OfficeSettings} (h : s.WorkDone)
    (hc : s.current = some (.office (.setOffice st))) : (s.settingsWritten st).WorkDone := by
  have done : ({ s.officeWritten with settings := st } : State).finishOp.WorkOwed :=
    link_done (op := .office (.setOffice st)) (workExcept_same h rfl rfl rfl rfl rfl rfl) hc rfl rfl
  unfold State.settingsWritten
  dsimp only
  refine respond_work (noteAuthority_work ?_)
  split
  · exact checkOverdue_work done
  · exact done

/-- An operation that nobody waits for completes after changes that leave the work in hand. -/
theorem finishPlain_work {s t : State} {op : RowOp} (h : s.WorkDone) (hc : s.current = some op) (he : op.errand = none)
    (ha : op.answers = false) (hs : s.SameHands t) : t.finishOp.WorkDone :=
  finish_work_plain (hs.work h) (hs.current.trans hc) he ha

theorem scrubbed_work {s : State} {id : RowId} (d : Decay) (h : s.WorkDone) (hc : s.current = some (.scrub id)) :
    (s.scrubbed id d).WorkDone := by
  have other : (s.readOrFault id d true).finishOp.WorkDone :=
    finishPlain_work h hc rfl rfl (readOrFault_rowsOnly s id d true).hands
  unfold State.scrubbed
  split
  · rename_i n
    have found := (scrubFindings_rowsOnly s n d).hands
    have freed : State.WorkDone { s.scrubFindings n d with locks := { (s.scrubFindings n d).locks with scrubber := none } } :=
      workExcept_congr (found.work h) rfl rfl rfl rfl rfl rfl rfl
    have finished := finish_work_plain freed (op := .scrub (.meter n)) (found.current.trans hc) rfl rfl
    exact workExcept_same finished rfl rfl rfl rfl rfl rfl
  · exact workExcept_same other rfl rfl rfl rfl rfl rfl

theorem officeRowRead_work {s : State} {id : RowId} (d : Decay) (h : s.WorkDone) (hc : s.current = some (.startOffice id)) :
    (s.officeRowRead id d).WorkDone := by
  have read : (s.readOrFault id d false).finishOp.WorkDone :=
    finishPlain_work h hc rfl rfl (readOrFault_rowsOnly s id d false).hands
  unfold State.officeRowRead
  dsimp only
  split
  · exact read
  · split
    · exact place_work_plain read rfl rfl
    · exact place_work_plain (s := State.unitsTakeValues _) (workExcept_same read rfl rfl rfl rfl rfl rfl) rfl rfl

theorem commitRowRead_work {s : State} {e : EngineId} (d : Decay) (h : s.WorkDone) (hc : s.current = some (.startCommit e)) :
    (s.commitRowRead e d).WorkDone := by
  have read : (s.readOrFault (.commit e) d false).finishOp.WorkDone :=
    finishPlain_work h hc rfl rfl (readOrFault_rowsOnly s (.commit e) d false).hands
  unfold State.commitRowRead
  dsimp only
  split
  · exact read
  · split
    · exact place_work_plain read rfl rfl
    · cases e <;> exact place_work_plain read rfl rfl

theorem rollMeterWritten_work {s : State} {e : EngineId} {m : Marker} (h : s.WorkDone)
    (hc : s.current = some (.rollMeter e m)) : (s.rollMeterWritten e m).WorkDone := by
  have written : (s.writeRecord m.row m.image).finishOp.WorkDone :=
    finishPlain_work h hc rfl rfl ⟨rfl, rfl, rfl, rfl, rfl, rfl, rfl⟩
  unfold State.rollMeterWritten
  dsimp only
  split <;> exact place_work_plain written rfl rfl

theorem rowScanned_work {s : State} {n : Nat} (d : Decay) (h : s.WorkDone) (hc : s.current = some (.scan n)) :
    (s.rowScanned n d).WorkDone := by
  have found : (s.scanFindings n d).finishOp.WorkDone := finishPlain_work h hc rfl rfl (scanFindings_rowsOnly s n d).hands
  unfold State.rowScanned
  dsimp only
  split
  · exact place_work_plain found rfl rfl
  · exact enterReady_ind (P := State.WorkDone) (workExcept_same found rfl rfl rfl rfl rfl rfl)
      (fun _ w => workExcept_same w rfl rfl rfl rfl rfl rfl) (fun _ w => checkOverdue_work w)
      (fun _ w => workExcept_same w rfl rfl rfl rfl rfl rfl)

theorem completion_work {s : State} (d : Decay) {op : RowOp} (h : s.WorkDone) (hc : s.current = some op) :
    (s.completion d op).WorkDone := by
  by_cases hd : op = .office .closeDay
  · subst hd
    exact dayClosed_work h hc
  by_cases hs : ∃ st, op = .office (.setOffice st)
  · obtain ⟨st, rfl⟩ := hs
    exact settingsWritten_work h hc
  by_cases ha : op.answers = true
  · exact replied_work h hc ha (completion_replied ha hd fun st e => hs ⟨st, e⟩)
  cases op with
  | itemRead e m => exact itemRead_work d h hc
  | scrub id => exact scrubbed_work d h hc
  | commitMarker e m =>
    exact commitNext_work (op := .commitMarker e m) (workExcept_same h rfl rfl rfl rfl rfl rfl) hc rfl rfl rfl rfl
  | commitMeter e m =>
    obtain ⟨hp, hw⟩ := commitRow_ops s.store m.row m.image.meter
    have same : State.current { s.writeRecord m.row m.image with store := s.store.commitRow m.row m.image.meter }
        = some (.commitMeter e m) := by
      rw [← hc, State.current, State.current, hp]
    exact commitNext_work (workExcept_same h rfl rfl rfl hp hw rfl) same rfl rfl rfl rfl
  | commitClear e => exact commitCleared_work h hc
  | startOffice id => exact officeRowRead_work d h hc
  | startCommit e => exact commitRowRead_work d h hc
  | rollMeter e m => exact rollMeterWritten_work h hc
  | rollClear e =>
    have cleared : ({ s with memory := s.memory.writeCommit e none } : State).finishOp.WorkDone :=
      finishPlain_work h hc rfl rfl ⟨rfl, rfl, rfl, rfl, rfl, rfl, rfl⟩
    cases e <;> exact place_work_plain cleared rfl rfl
  | scan n => exact rowScanned_work d h hc
  | office w =>
    cases w with
    | dayAge => exact finishPlain_work h hc rfl rfl ⟨rfl, rfl, rfl, rfl, rfl, rfl, rfl⟩
    | commit e m => exact officeRowWritten_work h hc
    | rollForward e m =>
      have written : ({ s.officeWritten with authority := s.authority.spend e m } : State).finishOp.WorkDone :=
        finishPlain_work h hc rfl rfl ⟨rfl, rfl, rfl, rfl, rfl, rfl, rfl⟩
      exact place_work_plain written rfl rfl
    | _ => exact absurd rfl ha
  | _ => exact absurd rfl ha

/-! ### Verifications, supply, reset -/

theorem grantVerified_work {s : State} {f : GrantFields} (h : s.WorkDone) (hb : s.cipher.busy = some (.grant f)) :
    (s.grantVerified f).WorkDone := by
  have owed : s.completeCipher.WorkOwed := complete_work_link h hb rfl
  unfold State.grantVerified
  dsimp only
  split
  · exact answer_work owed
  · split
    · exact answer_work owed
    · exact place_work_link owed rfl rfl

theorem loadKeyVerified_work {s : State} {f : LoadKeyFields} (h : s.WorkDone) (hb : s.cipher.busy = some (.loadKey f)) :
    (s.loadKeyVerified f).WorkDone := by
  have owed : s.completeCipher.WorkOwed := complete_work_link h hb rfl
  unfold State.loadKeyVerified
  dsimp only
  split
  · exact answer_work owed
  · split
    · exact answer_work owed
    · split
      · exact answer_work owed
      · exact place_work_link (s := State.setSlot _ _ _) (workExcept_same owed rfl rfl rfl rfl rfl rfl) rfl rfl

theorem restoreVerified_work {s : State} {f : RestoreFields} (h : s.WorkDone) (hb : s.cipher.busy = some (.restore f)) :
    (s.restoreVerified f).WorkDone := by
  have owed : s.completeCipher.WorkOwed := complete_work_link h hb rfl
  unfold State.restoreVerified
  split
  · exact consultLocks_work owed (sup_none owed)
  · exact answer_work owed

/-- The request that waited is in hand again, its answer still to be asked for (R15). -/
theorem supervisorFreed_work {s : State} {op : RecordOp} (h : s.WorkDone) (ho : s.locks.supervisor = some op) :
    s.supervisorFreed.WorkOwed := by
  refine ⟨h.store, h.cipher, h.errand, h.busy, ?_⟩
  have link := h.link
  rw [State.answersAwaited, ho] at link
  exact link

theorem deriveSupply_work {s : State} (h : s.WorkDone) : s.deriveSupply.WorkDone := by
  unfold State.deriveSupply
  dsimp only
  split
  · exact h
  · exact workExcept_busyEngine h (follow_busyEngine rfl) rfl rfl rfl rfl

theorem restart_work (s : State) (m : RecordMemory) : (s.restart m).WorkDone := by
  have idle : ∀ e, (s.restart m).busyEngine e = none := fun e => by cases e <;> rfl
  refine ⟨nofun, fun _ => rfl, fun e => ?_, fun e b _ hb => ?_, rfl⟩
  · rw [idle]
    rfl
  · rw [idle] at hb
    cases hb

theorem placeScrub_work {s : State} (id : RowId) (h : s.WorkDone) : (s.placeScrub id).WorkDone :=
  place_work_plain (s := { s with store := _ }) (workExcept_same h rfl rfl rfl rfl rfl rfl) rfl rfl

theorem pulse_sameHands (s : State) : s.pulse.store = s.store ∧ s.pulse.locks = s.locks ∧ s.pulse.cipher = s.cipher
    ∧ s.pulse.exchange = s.exchange := by
  unfold State.pulse
  dsimp only
  split <;> exact ⟨rfl, rfl, rfl, rfl⟩

theorem pulse_work {s : State} (h : s.WorkDone) : s.pulse.WorkDone := by
  obtain ⟨hstore, hlocks, hcipher, hlink⟩ := pulse_sameHands s
  exact workExcept_same h (pulse_sameEngines s) hlocks hcipher (by rw [hstore]) (by rw [hstore]) hlink

/-- Every step keeps the law of the work in hand. -/
theorem stepped_work {s t : State} (g : s.Stepped t) (h : s.WorkDone) : t.WorkDone := by
  cases g with
  | idle => exact h
  | requested t g _ => exact requested_work h g
  | unknownLane hd code hi => exact workExcept_congr h rfl rfl rfl rfl rfl rfl (notWorking hi).symm
  | replyRead r hr => exact workExcept_congr h rfl rfl rfl rfl rfl rfl (by rw [State.isWorking, State.isWorking, hr])
  | ticked => exact pulse_work (settleTick_work h)
  | expired lane => exact workExcept_same h rfl rfl rfl rfl rfl rfl
  | minute => exact settleMinute_work h
  | supplied mainsOk pwrWarn =>
    exact deriveSupply_work (s := { s with mainsOk := mainsOk, pwrWarn := pwrWarn }) (workExcept_same h rfl rfl rfl rfl rfl rfl)
  | restarted m => exact restart_work s m
  | resetAsserted => exact workExcept_same h rfl rfl rfl rfl rfl rfl
  | dispatched e lane he => exact dispatchTo_work h he
  | claimGranted c hc =>
    obtain ⟨unwaited, b, hb, hl, hs⟩ := unwait_work h hc
    exact grantClaim_work (s := s.unqueued c) unwaited hb hs hl
  | supervisorRetaken op ho => exact consultLocks_work (supervisorFreed_work h ho) rfl
  | monthAdvanced => exact workExcept_same h rfl rfl rfl rfl rfl rfl
  | rowPassed => exact workExcept_same h rfl rfl rfl rfl rfl rfl
  | rowClaimed n m => exact placeScrub_work _ (workExcept_congr h rfl rfl rfl rfl rfl rfl rfl)
  | rowVisited id => exact placeScrub_work _ h
  | tokenComputed e m p t hb => exact tokenComputed_work t h hb
  | grantVerified f hb => exact grantVerified_work h hb
  | loadKeyVerified f hb => exact loadKeyVerified_work h hb
  | restoreVerified f hb => exact restoreVerified_work h hb
  | completed op d hc => exact completion_work d h hc

end Sys2Proof.Machine
end

section
/-! Proofs: after start-up every step keeps the law of the units (R65, R66, R127, R128, R132, R158). -/
namespace Sys2Proof.Machine

open Sys2Proof

/-! ### Steps that leave the units -/

theorem holds_busyEngine {s t : State} (h : ∀ e, t.busyEngine e = s.busyEngine e) : t.holds = s.holds := by
  funext e
  rw [State.holds, State.holds, State.slotsHeld, State.slotsHeld, State.amountHeld, State.amountHeld, h]

/-- Operations that end leave what the engines hold. -/
theorem sameHands_holds {s t : State} (h : s.SameHands t) : t.holds = s.holds :=
  holds_engines h.engines

/-- An engine that holds nothing takes up a request. -/
theorem unitsDone_free {s : State} {e : EngineId} (h : s.UnitsDone) (hn : s.holds e = ([], 0)) :
    UnitsHold (s.holds.put e ([], 0)) s := by
  rw [← hn, put_self]
  exact h

theorem placePlain_unitsDone {s : State} {op : RowOp} (w : s.WorkDone) (h : s.UnitsDone) (he : op.errand = none)
    (hk : op.keySlot = none) (hs : op.startupStep = none) : (s.place op).UnitsDone :=
  place_unitsDone h rfl w.store (plainOk he hk hs)

theorem settleMinute_unitsDone {s : State} (w : s.WorkDone) (h : s.UnitsDone) : s.settleMinute.UnitsDone := by
  unfold State.UnitsDone
  rw [holds_engines (settleMinute_engines s)]
  exact settleMinute_units h w.store

theorem checkOverdue_unitsDone {s : State} (w : s.store.inProgress = none → s.store.waiting = []) (h : s.UnitsDone) :
    s.checkOverdue.UnitsDone := by
  unfold State.UnitsDone
  rw [holds_engines (checkOverdue_engines s)]
  exact checkOverdue_units h w

/-- A pulse raises the prescaler alone among the unit's values (R140). -/
theorem pulse_unitsDone {s : State} (h : s.UnitsDone) : s.pulse.UnitsDone := by
  obtain ⟨hstore, -⟩ := pulse_sameHands s
  have units : SameUnits s s.pulse := by
    unfold State.pulse
    dsimp only
    split <;> exact ⟨.inl rfl, rfl, rfl, rfl, rfl, rfl, rfl, rfl, fun _ => rfl, fun _ => rfl, rfl⟩
  unfold State.UnitsDone
  rw [holds_engines (pulse_sameEngines s)]
  exact unitsHold_congr h units (by rw [hstore]) (by rw [hstore])

theorem ticked_unitsDone {s : State} (w : s.WorkDone) (h : s.UnitsDone) : s.settleTick.pulse.UnitsDone := by
  refine pulse_unitsDone ?_
  unfold State.UnitsDone
  rw [holds_engines (settleTick_engines s)]
  exact settleTick_units h w.store

theorem deriveSupply_unitsDone {s : State} (h : s.UnitsDone) : s.deriveSupply.UnitsDone := by
  unfold State.deriveSupply
  dsimp only
  split
  · exact h
  · exact same_unitsDone h (holds_busyEngine (follow_busyEngine rfl)) rfl rfl rfl rfl rfl rfl

theorem dispatchTo_unitsDone {s : State} {e : EngineId} {l : LaneId} (w : s.WorkDone) (h : s.UnitsDone)
    (he : s.eligible e l = true) : (s.dispatchTo e l).UnitsDone := by
  have free : s.busyEngine e = none := by
    unfold State.eligible at he
    simp only [Bool.and_eq_true, beq_iff_eq] at he
    obtain ⟨⟨⟨⟨⟨-, hidle⟩, -⟩, -⟩, -⟩, -⟩ := he
    rw [State.busyEngine, hidle]
  have held := unitsDone_free h (holds_none free)
  unfold State.dispatchTo
  split
  · exact h
  · exact startItem_unitsDone (unitsHold_same held rfl rfl rfl rfl rfl rfl) w.store

theorem claimGranted_unitsDone {s : State} {c : EngineId × MeterNumber} (w : s.WorkDone) (h : s.UnitsDone)
    (hc : c ∈ s.locks.waiting) : ((s.unqueued c).grantClaim c.1 c.2).UnitsDone := by
  obtain ⟨-, b, hb, ⟨i, -, -, hm⟩, hs⟩ := unwait_work w hc
  rw [hs] at hm
  obtain ⟨hres, hslots⟩ := hm
  have held := unitsDone_free h (e := c.1) (by rw [holds_busy hb, hres, hslots])
  exact grantClaim_unitsDone (s := s.unqueued c) (unitsHold_same held rfl rfl rfl rfl rfl rfl) w.store hb hslots hres

theorem tokenComputed_unitsDone {s : State} {e : EngineId} {m : MeterNumber} {p : PlannedToken} (t : Token) (w : s.WorkDone)
    (h : s.UnitsDone) (hb : s.cipher.busy = some (.token e m p)) : (s.completeCipher.receiveToken e t).UnitsDone := by
  obtain ⟨b, hbusy, hs, hl, -⟩ := cipher_engine w hb rfl
  obtain ⟨i, hi, -, hrow, hrec, hres⟩ := lawful_tokens hl hs
  have same : s.completeCipher.busyEngine e = some b := hbusy
  unfold State.receiveToken
  rw [same]
  refine continueTokens_unitsDone ?_ w.store hi hrow hrec hres
  dsimp only
  rw [← holds_busy same, put_self]
  exact same_unitsDone h rfl rfl rfl rfl rfl rfl rfl

theorem grantVerified_unitsDone {s : State} {f : GrantFields} (w : s.WorkDone) (h : s.UnitsDone) :
    (s.grantVerified f).UnitsDone := by
  have done : s.completeCipher.UnitsDone := same_unitsDone h rfl rfl rfl rfl rfl rfl rfl
  unfold State.grantVerified
  dsimp only
  split
  · exact answer_unitsDone done rfl
  · split
    · exact answer_unitsDone done rfl
    · exact place_unitsDone done rfl w.store (plainOk rfl rfl rfl)

/-- The load passes checks 3 and 4: no other slot holds the generation and no item uses the slot (R68). -/
theorem generationElsewhere_false {slots : Vector KeySlot 4} {i : SlotId} {g : Nat}
    (h : generationElsewhere slots i g = false) (j : SlotId) (hj : j ≠ i) : slots[j].generation ≠ some g := by
  have := List.any_eq_false.1 h j (List.mem_finRange j)
  simpa [hj] using this

theorem loadKeyVerified_unitsDone {s : State} {f : LoadKeyFields} (w : s.WorkDone) (h : s.UnitsDone)
    (hb : s.cipher.busy = some (.loadKey f)) : (s.loadKeyVerified f).UnitsDone := by
  have done : s.completeCipher.UnitsDone := same_unitsDone h rfl rfl rfl rfl rfl rfl rfl
  have owed : s.completeCipher.WorkOwed := complete_work_link w hb rfl
  unfold State.loadKeyVerified
  dsimp only
  split
  · exact answer_unitsDone done rfl
  · split
    · exact answer_unitsDone done rfl
    · rename_i fresh
      split
      · exact answer_unitsDone done rfl
      · rename_i unused
        unfold State.UnitsDone
        rw [holds_engines (s := s) (by simp)]
        refine changing_units done (noKey owed) w.store (by simpa using unused) rfl rfl fun c hc => ?_
        cases hc
        exact generationElsewhere_false (by simpa using fresh)

theorem restoreVerified_unitsDone {s : State} {f : RestoreFields} (w : s.WorkDone) (h : s.UnitsDone) :
    (s.restoreVerified f).UnitsDone := by
  have done : s.completeCipher.UnitsDone := same_unitsDone h rfl rfl rfl rfl rfl rfl rfl
  unfold State.restoreVerified
  split
  · exact consultLocks_unitsDone done w.store
  · exact answer_unitsDone done rfl

/-! ### Completions that leave the units -/

/-- An operation that is no key operation ends after changes that leave the units. -/
theorem finishRows_unitsDone {s t : State} {op : RowOp} (h : s.UnitsDone) (hc : s.current = some op)
    (hk : op.keySlot = none) (g : s.RowsOnly t) : t.finishOp.UnitsDone :=
  finish_unitsDone h hc hk g.units g.hands.waiting (sameHands_holds g.hands)

theorem rowsReplied_unitsDone {s t : State} {op : RowOp} (h : s.UnitsDone) (hc : s.current = some op)
    (hk : op.keySlot = none) (g : s.RowsReplied t) : t.UnitsDone := by
  obtain ⟨u, c, b, hu, rfl⟩ := g
  exact respond_unitsDone (finishRows_unitsDone h hc hk hu) rfl

theorem itemRead_unitsDone {s : State} {e : EngineId} {m : MeterNumber} (d : Decay) (w : s.WorkDone) (h : s.UnitsDone)
    (hc : s.current = some (.itemRead e m)) : (s.itemRead e m d).UnitsDone := by
  have read := readMeter_rowsOnly s m d
  obtain ⟨b, i, hbusy, hi, hr, hs⟩ := itemRead_engine w hc
  have done : ∀ t : State, s.RowsOnly t → t.finishOp.UnitsDone := fun t => finishRows_unitsDone h hc rfl
  have busy : ∀ t : State, s.RowsOnly t → t.finishOp.busyEngine e = some b := fun t ht =>
    (busyEngine_of_engines ((finishOp_engines t).trans ht.hands.engines) e).trans hbusy
  have nothing : ∀ t : State, s.RowsOnly t → t.finishOp.holds e = ([], 0) := fun t ht => by
    rw [holds_busy (busy t ht), hr, hs]
  have between : ∀ t : State, s.RowsOnly t → State.WorkExcept 0 (some e) t.finishOp := fun t ht =>
    finish_work_engine (ht.hands.work w) (ht.hands.current.trans hc) rfl rfl
  unfold State.itemRead
  simp only [hbusy, hi]
  split <;> rename_i ht <;> rw [ht] at read
  · exact refuseItem_unitsDone (unitsDone_free (done _ read) (nothing _ read)) (finish_idle _)
  · exact refuseItem_unitsDone (unitsDone_free (done _ read) (nothing _ read)) (finish_idle _)
  · exact checkItem_unitsDone (done _ read) (between _ read) (busy _ read) hi hr hs

theorem scrubbed_unitsDone {s : State} {id : RowId} (d : Decay) (h : s.UnitsDone) (hc : s.current = some (.scrub id)) :
    (s.scrubbed id d).UnitsDone := by
  have other : (s.readOrFault id d true).finishOp.UnitsDone :=
    finishRows_unitsDone h hc rfl (readOrFault_rowsOnly s id d true)
  unfold State.scrubbed
  split
  · rename_i n
    have found := scrubFindings_rowsOnly s n d
    have freed : ({ s.scrubFindings n d with locks := { (s.scrubFindings n d).locks with scrubber := none } } :
        State).finishOp.UnitsDone :=
      finish_unitsDone h hc rfl (found.units.trans (sameUnits_of rfl rfl rfl rfl)) found.hands.waiting
        (holds_engines found.hands.engines)
    exact same_unitsDone freed rfl rfl rfl rfl rfl rfl rfl
  · exact same_unitsDone other rfl rfl rfl rfl rfl rfl rfl

/-! ### Office writes -/

theorem grantWritten_unitsDone {s : State} {amount serial : Nat} (h : s.UnitsDone)
    (hc : s.current = some (.office (.grant amount serial))) : (s.grantWritten amount serial).UnitsDone :=
  respond_unitsDone (officeDone_unitsDone (t := { s.officeWritten with authority := s.authority.grant amount serial }) h hc rfl
    rfl rfl ⟨rfl, Nat.le_add_right _ _⟩ rfl rfl rfl ⟨rfl, rfl⟩ rfl rfl) rfl

theorem dayClosed_unitsDone {s : State} (w : s.WorkDone) (h : s.UnitsDone) (hc : s.current = some (.office .closeDay)) :
    s.dayClosed.UnitsDone :=
  respond_unitsDone (officeDone_unitsDone
    (t := { s.settleMinute.officeWritten with authority := s.settleMinute.authority.newDay }) (settleMinute_unitsDone w h)
    (settleMinute_current hc) rfl rfl rfl ⟨rfl, le_refl _⟩ rfl rfl rfl ⟨rfl, rfl⟩ rfl rfl) rfl

theorem noteAuthority_unitsDone (s : State) {t : State} (h : t.UnitsDone) : (State.noteAuthority s t).UnitsDone := by
  obtain ⟨ev, e⟩ := noteAuthority_eq s t
  rw [e]
  exact same_unitsDone h rfl rfl rfl rfl rfl rfl rfl

theorem settingsWritten_unitsDone {s : State} {st : OfficeSettings} (h : s.UnitsDone)
    (hc : s.current = some (.office (.setOffice st))) : (s.settingsWritten st).UnitsDone := by
  have done : ({ s.officeWritten with settings := st } : State).finishOp.UnitsDone :=
    officeDone_unitsDone h hc rfl rfl rfl ⟨rfl, le_refl _⟩ rfl rfl rfl ⟨rfl, rfl⟩ rfl rfl
  unfold State.settingsWritten
  dsimp only
  refine respond_unitsDone (noteAuthority_unitsDone s ?_) rfl
  split
  · exact checkOverdue_unitsDone (finish_idle _) done
  · exact done

/-! ### The four writes of a commit -/

/-- While a write of a commit is in progress the engine waits for nothing else (R112). -/
theorem commit_engine {s : State} {op : RowOp} {e : EngineId} (w : s.WorkDone) (hc : s.current = some op)
    (ho : op.errand = some (e, .commit)) : ∃ b i, s.busyEngine e = some b ∧ b.items[b.item]? = some i
      ∧ noErrand e s.store.waiting := by
  obtain ⟨b, hbusy, -, ⟨i, hi, -⟩, -, hops, -⟩ := current_engine w hc ho
  exact ⟨b, i, hbusy, hi, noErrand_of hops⟩

/-- A commit row is written (R158, R159). -/
def State.commitRowSet (s : State) (e : EngineId) (c : Option Marker) : State :=
  { s with memory := s.memory.writeCommit e c }

/-- A commit row's write changes the amount due of its engine alone. -/
theorem commitRowSet_units {s : State} {op : RowOp} {e : EngineId} {c : Option Marker} (w : s.WorkDone) (h : s.UnitsDone)
    (hc : s.current = some op) (ho : op.errand = some (e, .commit)) (hk : op.keySlot = none)
    (hd : (s.memory.writeCommit e c).due e ≤ (s.holds e).2) : (s.commitRowSet e c).finishOp.UnitsDone := by
  obtain ⟨-, -, -, -, hne⟩ := commit_engine w hc ho
  have written := commit_unitsHoldFor (t := s.commitRowSet e c) (v := s.holds e) h hc hk hne rfl rfl rfl h.1.within rfl rfl
    h.1.agree (fun _ _ => rfl) (fun f hf => get_writeCommit_other _ e f _ hf) rfl hd
  rw [put_self] at written
  unfold State.UnitsDone
  rw [holds_engines (s := s) (finishOp_engines (s.commitRowSet e c))]
  exact finish_units written

theorem markerWritten_unitsDone {s : State} {e : EngineId} {m : Marker} (w : s.WorkDone) (h : s.UnitsDone)
    (hc : s.current = some (.commitMarker e m)) : (s.markerWritten e m).UnitsDone := by
  obtain ⟨tender, count⟩ : m.tender = (s.holds e).2 ∧ m.count = s.authority.commitCounts.get e + 1 := current_Ok h hc
  have due : (s.memory.writeCommit e (some m)).due e ≤ (s.holds e).2 := by
    rw [RecordMemory.due, get_writeCommit]
    dsimp only
    split
    · exact Nat.zero_le _
    · exact tender.le
  refine place_unitsDone (commitRowSet_units w h hc rfl rfl due) rfl (finish_idle _) ⟨?_, ?_, ?_⟩
  · rw [holds_engines (s := s) (finishOp_engines (s.commitRowSet e (some m)))]
    exact tender
  · simpa using count
  · rw [finishOp_memory]
    exact get_writeCommit _ _ _

theorem meterRowWritten_unitsDone {s : State} {e : EngineId} {m : Marker} (h : s.UnitsDone)
    (hc : s.current = some (.commitMeter e m)) : (s.meterRowWritten e m).UnitsDone := by
  obtain ⟨hp, hw⟩ := commitRow_ops s.store m.row m.image.meter
  have written : s.RowsOnly { s.writeRecord m.row m.image with store := s.store.commitRow m.row m.image.meter } :=
    rowsOnly_of hp hw rfl
  have done := finishRows_unitsDone h hc rfl written
  have same := holds_engines (s := s) (t := ({ s.writeRecord m.row m.image with
    store := s.store.commitRow m.row m.image.meter } : State).finishOp) (finishOp_engines _)
  obtain ⟨tender, count, marked⟩ : m.tender = (s.holds e).2 ∧ m.count = s.authority.commitCounts.get e + 1
    ∧ (s.memory.commits.get e).content = some m := current_Ok h hc
  unfold State.meterRowWritten
  refine place_unitsDone done rfl (finish_idle _) ⟨?_, ?_, ?_⟩
  · rw [same]
    exact tender
  · simpa using count
  · rw [finishOp_memory]
    exact marked

/-- The office row that a commit's third write forms: the item's tender spent, and the engine's count the marker's (R158). -/
theorem formed_commit {s : State} {e : EngineId} {m : Marker} (h : s.UnitsDone)
    (hc : s.current = some (.office (.commit e m))) : s.formedRow.granted = s.authority.granted
      ∧ s.formedRow.spent = s.authority.spent + m.tender
      ∧ s.formedRow.commitCounts = s.authority.commitCounts.set e m.count :=
  formed_row h.2 hc

/-- The state between a commit's third write and the store's next operation: the unit has taken the values, and engine
`e`'s record of its reservation is over (R119, R132). -/
def State.spentBy (s : State) (e : EngineId) (m : Marker) (b : BusyEngine) : State :=
  State.setEngine { s.officeWritten with
    authority := { s.authority.spend e m with reserved := s.authority.reserved - m.tender } } e
    (.busy { b with work := { b.work with reserved := 0 } })

theorem officeRowWritten_eq {s : State} {e : EngineId} {b : BusyEngine} (m : Marker) (hb : s.busyEngine e = some b) :
    s.officeRowWritten e m = (s.spentBy e m b).finishOp.place (.commitClear e) := by
  unfold State.officeRowWritten
  dsimp only
  rw [clearReserved_busy (b := b) (by exact hb)]
  rfl

theorem spentBy_units {s : State} {e : EngineId} {m : Marker} {b : BusyEngine} (w : s.WorkDone) (h : s.UnitsDone)
    (hc : s.current = some (.office (.commit e m))) (hb : s.busyEngine e = some b) :
    UnitsHoldFor s.store.waiting (s.holds.put e (b.work.slots, 0)) (s.spentBy e m b) := by
  obtain ⟨-, -, -, -, hne⟩ := commit_engine w hc rfl
  obtain ⟨tender, count, marked⟩ : m.tender = (s.holds e).2 ∧ m.count = s.authority.commitCounts.get e + 1
    ∧ (s.memory.commits.get e).content = some m := current_Ok h hc
  obtain ⟨formed, spent, counts⟩ := formed_commit h hc
  have enough : (s.holds e).2 ≤ s.authority.reserved := by
    rw [h.1.held]
    cases e
    · exact Nat.le_add_right _ _
    · exact Nat.le_add_left _ _
  have within := h.1.within
  refine commit_unitsHoldFor (t := s.spentBy e m b) h hc rfl hne rfl rfl rfl ?_ ?_ ?_ ⟨formed, spent, counts⟩
    (fun f hf => Pair.get_set_other _ _ _ _ hf) (fun _ _ => rfl) rfl ?_
  · show s.authority.spent + m.tender + (s.authority.reserved - m.tender) ≤ s.authority.granted
    omega
  · rw [holds_busy hb]
  · show s.authority.reserved - m.tender + (s.holds e).2 = s.authority.reserved + 0
    omega
  · show (s.memory.writeOffice s.formedRow).due e ≤ 0
    rw [RecordMemory.due, show ((s.memory.writeOffice s.formedRow).commits.get e).content = some m from marked]
    show (if m.count = s.formedRow.commitCounts.get e then 0 else m.tender) ≤ 0
    rw [counts, Pair.get_set_same, if_pos rfl]

theorem officeRowWritten_unitsDone {s : State} {e : EngineId} {m : Marker} (w : s.WorkDone) (h : s.UnitsDone)
    (hc : s.current = some (.office (.commit e m))) : (s.officeRowWritten e m).UnitsDone := by
  obtain ⟨b, -, hb, -⟩ := commit_engine w hc rfl
  have written := spentBy_units w h hc hb
  have same : (s.spentBy e m b).finishOp.holds = s.holds.put e (b.work.slots, 0) :=
    (holds_engines (finishOp_engines _)).trans (holds_setEngine _ e _)
  rw [officeRowWritten_eq m hb]
  refine place_unitsDone (finish_units (s := s.spentBy e m b) written) same (finish_idle _) ?_
  show ((s.holds.put e (b.work.slots, 0)) e).2 = 0
  rw [put_same]

/-- A closed item lowers the counts of the slots that it used, and its engine holds nothing (R66, R120). -/
theorem lowerSlots_units {s : State} {e : EngineId} {b : BusyEngine} (w : State.WorkExcept 0 (some e) s) (h : s.UnitsDone)
    (hb : s.busyEngine e = some b) (hn : (s.holds e).2 = 0) :
    UnitsHold (s.holds.put e ([], 0)) (s.lowerSlots b.work.slots) := by
  have slots : (s.holds e).1 = b.work.slots := by rw [holds_busy hb]
  have within := h.1.within
  refine ⟨?_, ?_⟩
  · rw [lowerSlots_store]
    refine unitsHoldFor_hold h.1 (noErrand_mid w) (by simp) (by simp) (by simp [hn]) (by simpa using within) (by simp)
      ((h.1.dues e).trans hn.le) (fun i => ?_) (fun i => ?_) nofun
    · rw [lowerSlots_slots]
    · have counts := h.1.counts i
      have enough : b.work.slots.count i ≤ s.slots[i].inUse := by
        rw [counts, ← slots]
        cases e
        · exact Nat.le_add_right _ _
        · exact Nat.le_add_left _ _
      rw [lowerSlots_slots, slots]
      exact Nat.sub_add_cancel enough
  · rw [lowerSlots_frame]
    exact h.2

theorem closeItem_unitsDone {s : State} {e : EngineId} {b : BusyEngine} {i : Item} (w : State.WorkExcept 0 (some e) s)
    (h : s.UnitsDone) (hb : s.busyEngine e = some b) (hn : (s.holds e).2 = 0) : (s.closeItem e b i).UnitsDone := by
  have released : (s.releaseLock e).UnitsDone := same_unitsDone h rfl rfl rfl rfl rfl rfl rfl
  have between : State.WorkExcept 0 (some e) (s.releaseLock e) := workExcept_congr w rfl rfl rfl rfl rfl rfl rfl
  have lowered := lowerSlots_units (b := b) between released hb hn
  refine endItem_unitsDone ?_ (by simpa using w.store)
  rw [holds_engines (s := s) (by simp)]
  exact unitsHold_same lowered rfl rfl rfl rfl rfl rfl

theorem commitCleared_eq {s : State} {e : EngineId} {b : BusyEngine} {i : Item}
    (hb : (s.commitRowSet e none).finishOp.busyEngine e = some b) (hi : b.items[b.item]? = some i) :
    s.commitCleared e = (s.commitRowSet e none).finishOp.closeItem e b i := by
  unfold State.commitRowSet at hb ⊢
  unfold State.commitCleared
  simp only [hb, hi]

theorem commitCleared_unitsDone {s : State} {e : EngineId} (w : s.WorkDone) (h : s.UnitsDone)
    (hc : s.current = some (.commitClear e)) : (s.commitCleared e).UnitsDone := by
  obtain ⟨b, i, hbusy, hi, -⟩ := commit_engine w hc rfl
  have nothing : (s.holds e).2 = 0 := current_Ok h hc
  have due : (s.memory.writeCommit e none).due e ≤ (s.holds e).2 := by
    rw [RecordMemory.due, get_writeCommit]
    exact Nat.zero_le _
  have between : State.WorkExcept 0 (some e) (s.commitRowSet e none).finishOp :=
    finish_work_engine (workExcept_same w rfl rfl rfl rfl rfl rfl) (op := .commitClear e) hc rfl rfl
  have busy : (s.commitRowSet e none).finishOp.busyEngine e = some b :=
    (busyEngine_of_engines (finishOp_engines _) e).trans hbusy
  have closed := closeItem_unitsDone (i := i) between (commitRowSet_units w h hc rfl rfl due) busy
    (by rw [holds_engines (s := s) (finishOp_engines (s.commitRowSet e none))]; exact nothing)
  rw [commitCleared_eq busy hi]
  exact closed

/-! ### Key rows, and every completion after start-up -/

theorem keyWritten_unitsDone {s : State} {i : SlotId} {k : KeyContent} (w : s.WorkDone) (h : s.UnitsDone)
    (hc : s.current = some (.loadKey i k)) : (s.keyWritten i k).UnitsDone := by
  obtain ⟨-, fresh⟩ : s.slots[i].state = .changing ∧ ∀ j : SlotId, j ≠ i → s.slots[j].generation ≠ some k.generation :=
    current_Ok h hc
  refine respond_unitsDone (keyDone_unitsDone h w hc rfl rfl rfl rfl rfl nofun fun x hx => ?_) rfl
  cases hx
  exact fresh

theorem keyDropped_unitsDone {s : State} {i : SlotId} {g : Nat} (w : s.WorkDone) (h : s.UnitsDone)
    (hc : s.current = some (.dropKey i g)) : (s.keyDropped i g).UnitsDone :=
  respond_unitsDone (keyDone_unitsDone h w hc rfl rfl rfl rfl rfl nofun nofun) rfl

/-- An operation that ends after changes of rows that the units do not read, its request answered. -/
theorem finishSame_unitsDone {s t : State} {op : RowOp} {c : ResultCode} {b : ReplyBody} (h : s.UnitsDone)
    (hc : s.current = some op) (hk : op.keySlot = none) (g : SameUnits s t) (hh : s.SameHands t) :
    (t.finishOp.respond c b).UnitsDone :=
  respond_unitsDone (finish_unitsDone h hc hk g hh.waiting (sameHands_holds hh)) rfl

/-- No operation of start-up is lawful after it (R166). -/
theorem startupStep_of_lawful {held : EngineId → Nat} {s : State} {op : RowOp} (h : op.Lawful held s) :
    op.startupStep = none := by
  unfold RowOp.Lawful at h
  split at h
  case h_7 => exact h
  all_goals rfl

/-- After start-up every completion keeps the law of the units. -/
theorem completion_unitsDone {s : State} (d : Decay) {op : RowOp} (w : s.WorkDone) (h : s.UnitsDone)
    (hc : s.current = some op) : (s.completion d op).UnitsDone := by
  have noStart : op.startupStep = none := startupStep_of_lawful (current_Ok h hc)
  cases op with
  | itemRead e m => exact itemRead_unitsDone d w h hc
  | counterRead lane q => exact rowsReplied_unitsDone h hc rfl (counterRead_replied s lane q d)
  | record o => exact rowsReplied_unitsDone h hc rfl (recordDone_replied s o _ d)
  | scrub id => exact scrubbed_unitsDone d h hc
  | commitMarker e m => exact markerWritten_unitsDone w h hc
  | commitMeter e m => exact meterRowWritten_unitsDone h hc
  | commitClear e => exact commitCleared_unitsDone w h hc
  | setTariff row bank =>
    exact finishSame_unitsDone h hc rfl ⟨.inl rfl, rfl, rfl, rfl, rfl, rfl, rfl, rfl, fun _ => rfl, fun _ => rfl, rfl⟩
      ⟨rfl, rfl, rfl, rfl, rfl, rfl, rfl⟩
  | clearTariff row =>
    exact finishSame_unitsDone h hc rfl ⟨.inl rfl, rfl, rfl, rfl, rfl, rfl, rfl, rfl, fun _ => rfl, fun _ => rfl, rfl⟩
      ⟨rfl, rfl, rfl, rfl, rfl, rfl, rfl⟩
  | setLane named given names =>
    exact finishSame_unitsDone h hc rfl ⟨.inl rfl, rfl, rfl, rfl, rfl, rfl, rfl, rfl, fun _ => rfl, fun _ => rfl, rfl⟩
      ⟨rfl, rfl, rfl, rfl, rfl, rfl, rfl⟩
  | loadKey slot k => exact keyWritten_unitsDone w h hc
  | dropKey slot g => exact keyDropped_unitsDone w h hc
  | office o =>
    cases o with
    | grant amount serial => exact grantWritten_unitsDone h hc
    | closeDay => exact dayClosed_unitsDone w h hc
    | closeMonth =>
      exact respond_unitsDone (officeDone_unitsDone h hc rfl rfl rfl ⟨rfl, le_refl _⟩ rfl rfl rfl ⟨rfl, rfl⟩ rfl rfl) rfl
    | dayAge => exact officeDone_unitsDone h hc rfl rfl rfl ⟨rfl, le_refl _⟩ rfl rfl rfl ⟨rfl, rfl⟩ rfl rfl
    | commit e m => exact officeRowWritten_unitsDone w h hc
    | setOffice st => exact settingsWritten_unitsDone h hc
    | setAlarm exponent count =>
      exact respond_unitsDone (officeDone_unitsDone h hc rfl rfl rfl ⟨rfl, le_refl _⟩ rfl rfl rfl ⟨rfl, rfl⟩ rfl rfl) rfl
    | rollForward e m => cases noStart
  | _ => cases noStart

end Sys2Proof.Machine
end

section
/-! Proofs: until start-up is over every step keeps the law of the units, and READY begins with it (R160, R166 to R171). -/
namespace Sys2Proof.Machine

open Sys2Proof

/-! ### What record memory still owes -/

theorem memoryLawful_same {s t : State} (g : SameUnits s t) (h : s.memory.Lawful) : t.memory.Lawful := by
  obtain ⟨owed, keys⟩ := h
  refine ⟨?_, fun i j x y hx hy => keys i j x y ((g.keys i).symm.trans hx) ((g.keys j).symm.trans hy)⟩
  rw [g.mspent, due_congr g, due_congr g, g.mgranted]
  exact owed

theorem due_writeCommit_none (m : RecordMemory) (e : EngineId) : (m.writeCommit e none).due e = 0 := by
  rw [RecordMemory.due, get_writeCommit]

theorem due_writeCommit_other (m : RecordMemory) {e f : EngineId} (c : Option Marker) (h : f ≠ e) :
    (m.writeCommit e c).due f = m.due f := by
  rw [RecordMemory.due, get_writeCommit_other m e f c h]
  rfl

/-- A cleared commit row owes nothing (R159). -/
theorem writeCommit_none_lawful {m : RecordMemory} (e : EngineId) (h : m.Lawful) : (m.writeCommit e none).Lawful := by
  obtain ⟨owed, keys⟩ := h
  refine ⟨?_, keys⟩
  have cleared := due_writeCommit_none m e
  show m.office.content.spent + _ + _ ≤ m.office.content.granted
  cases e
  · rw [cleared, due_writeCommit_other m none (show EngineId.b ≠ .a by decide)]
    omega
  · rw [cleared, due_writeCommit_other m none (show EngineId.a ≠ .b by decide)]
    omega

/-- An office row with more granted and the rest of the amounts as they were. -/
theorem writeOffice_lawful {m : RecordMemory} {r : OfficeRow} (h : m.Lawful) (hg : m.office.content.granted ≤ r.granted)
    (hs : r.spent = m.office.content.spent) (hc : r.commitCounts = m.office.content.commitCounts) :
    (m.writeOffice r).Lawful := by
  obtain ⟨owed, keys⟩ := h
  have due : ∀ e, (m.writeOffice r).due e = m.due e := fun e => by
    have same : ((m.writeOffice r).commits.get e).content = (m.commits.get e).content := rfl
    have counts : (m.writeOffice r).office.content.commitCounts = m.office.content.commitCounts := hc
    rw [RecordMemory.due, same, counts, RecordMemory.due]
  refine ⟨?_, keys⟩
  rw [due, due]
  show r.spent + _ + _ ≤ r.granted
  rw [hs]
  omega

/-- An amount due becomes spent as the office row takes the marker's values (R132, R160). -/
theorem writeOffice_spend {m : RecordMemory} {r : OfficeRow} {e : EngineId} {k : Marker}
    (hk : (m.commits.get e).content = some k) (hn : k.count ≠ m.office.content.commitCounts.get e)
    (hc : r.commitCounts = m.office.content.commitCounts.set e k.count) :
    m.due e = k.tender ∧ (m.writeOffice r).due e = 0 ∧ ∀ f, f ≠ e → (m.writeOffice r).due f = m.due f := by
  have before : m.due e = k.tender := by
    rw [RecordMemory.due, hk]
    exact if_neg hn
  have same : ∀ f, ((m.writeOffice r).commits.get f).content = (m.commits.get f).content := fun _ => rfl
  refine ⟨before, ?_, fun f hf => ?_⟩
  · rw [RecordMemory.due, same, hk]
    exact if_pos (by show k.count = r.commitCounts.get e; rw [hc, Pair.get_set_same])
  · have counts : (m.writeOffice r).office.content.commitCounts.get f = m.office.content.commitCounts.get f := by
      show r.commitCounts.get f = _
      rw [hc, Pair.get_set_other _ _ _ _ hf]
    rw [RecordMemory.due, same, counts, RecordMemory.due]

theorem writeOffice_spend_lawful {m : RecordMemory} {r : OfficeRow} {e : EngineId} {k : Marker} (h : m.Lawful)
    (hk : (m.commits.get e).content = some k) (hn : k.count ≠ m.office.content.commitCounts.get e)
    (hg : r.granted = m.office.content.granted) (hs : r.spent = m.office.content.spent + k.tender)
    (hc : r.commitCounts = m.office.content.commitCounts.set e k.count) : (m.writeOffice r).Lawful := by
  obtain ⟨owed, keys⟩ := h
  obtain ⟨before, after, other⟩ := writeOffice_spend hk hn hc
  refine ⟨?_, keys⟩
  show r.spent + _ + _ ≤ r.granted
  rw [hs, hg]
  cases e
  · rw [after, other .b (by decide)]
    omega
  · rw [after, other .a (by decide)]
    omega

/-! ### Start-up between two of its operations -/

/-- Start-up is between two operations: the store is idle, and the law's parts that no operation bears on hold. -/
structure State.StartIdle (s : State) : Prop where
  office : s.office ≠ .ready
  engines : ∀ e, s.busyEngine e = none
  link : s.isWorking = false
  minute : s.authority.prescaler = 0
  within : s.authority.spent + s.authority.reserved ≤ s.authority.granted
  memory : s.memory.Lawful
  inProgress : s.store.inProgress = none
  waiting : s.store.waiting = []

theorem fresh_congr {s t : State} (g : SameUnits s t) (h : s.UnitsFresh) : t.UnitsFresh := by
  obtain ⟨⟨granted, spent, counts⟩, reserved, slots⟩ := h
  refine ⟨⟨?_, ?_, ?_⟩, g.reserved.trans reserved, fun i => ?_⟩
  · rw [g.mgranted, g.granted, granted]
  · rw [g.mspent, g.spent, spent]
  · rw [g.mcounts, g.counts, counts]
  · rw [g.slots, g.keys]
    exact slots i

theorem startLawful_congr {s t : State} {op : RowOp} (g : SameUnits s t) (h : op.StartLawful s) : op.StartLawful t := by
  cases op with
  | startOffice id => trivial
  | startCommit e => exact ⟨fresh_congr g h.1, fun he => (due_congr g .a).trans (h.2 he)⟩
  | rollMeter e m =>
    obtain ⟨fresh, marked, first⟩ := h
    exact ⟨fresh_congr g fresh, (g.commits e).trans marked, fun he => (due_congr g .a).trans (first he)⟩
  | rollClear e =>
    obtain ⟨fresh, due, first⟩ := h
    exact ⟨fresh_congr g fresh, (due_congr g e).trans due, fun he => (due_congr g .a).trans (first he)⟩
  | scan n => exact ⟨fresh_congr g h.1, fun e => (due_congr g e).trans (h.2 e)⟩
  | office w =>
    cases w with
    | rollForward e m =>
      obtain ⟨fresh, marked, counted, first⟩ := h
      exact ⟨fresh_congr g fresh, (g.commits e).trans marked, by rw [g.counts]; exact counted,
        fun he => (due_congr g .a).trans (first he)⟩
    | _ => exact h
  | _ => exact h

theorem startupStep_of_startLawful {s : State} {op : RowOp} (h : op.StartLawful s) : op.startupStep.isSome := by
  unfold RowOp.StartLawful at h
  split at h
  all_goals first | rfl | exact h.elim

/-- Start-up has one operation at a time (R166). -/
theorem starting_alone {s : State} {op : RowOp} (h : s.UnitsStarting) (r : s.store.RowsLawful) (hc : s.current = some op) :
    s.store.waiting = [] := by
  obtain ⟨-, -, -, one, -⟩ := r
  have ops := ops_current hc
  cases hw : s.store.waiting with
  | nil => rfl
  | cons next rest =>
    rw [hw] at ops
    have first := startupStep_of_startLawful (h.ops op (by rw [ops]; exact List.mem_cons_self))
    have second := startupStep_of_startLawful (h.ops next (by rw [ops]; exact List.mem_cons_of_mem _ List.mem_cons_self))
    simp only [ops, List.countP_cons, first, second, if_true] at one
    omega

/-- The law of start-up reads these parts of the state alone. -/
theorem unitsStarting_congr {s t : State} (h : s.UnitsStarting) (g : SameUnits s t) (ho : t.office ≠ .ready)
    (he : ∀ e, t.busyEngine e = s.busyEngine e) (hx : t.isWorking = false)
    (hp : t.authority.prescaler = 0) (hi : t.store.inProgress = s.store.inProgress)
    (hw : t.store.waiting = s.store.waiting) : t.UnitsStarting := by
  have ops : t.store.operations = s.store.operations := by rw [Store.operations, Store.operations, hi, hw]
  refine ⟨ho, fun e => (he e).trans (h.engines e), hx, hp, ?_, memoryLawful_same g h.memory, fun op hop => ?_,
    Formed_congr h.formed g hi⟩
  · rw [g.spent, g.reserved, g.granted]
    exact h.within
  · rw [ops] at hop
    exact startLawful_congr g (h.ops op hop)

/-- With the store idle the law of start-up holds, whatever comes next. -/
theorem startIdle_starting {s : State} (h : s.StartIdle) : s.UnitsStarting := by
  have empty : s.store.operations = [] := by rw [Store.operations, h.inProgress, h.waiting]; rfl
  refine ⟨h.office, h.engines, h.link, h.minute, h.within, h.memory, fun op hop => ?_, fun o w ho => ?_⟩
  · rw [empty] at hop
    cases hop
  · rw [h.inProgress] at ho
    cases ho

/-- Start-up's next operation is placed. -/
theorem startIdle_place {s : State} {op : RowOp} (h : s.StartIdle) (ok : op.StartLawful s) : (s.place op).UnitsStarting := by
  have same : SameUnits s (s.place op) := sameUnits_of (by simp) (by simp) (by simp) (by simp)
  have ops : (s.place op).store.operations = [op] := by
    rw [place_ops op fun _ => h.waiting, Store.operations, h.inProgress, h.waiting]
    rfl
  refine ⟨by simpa using h.office, fun e => ?_, ?_, by simpa using h.minute, by simpa using h.within,
    memoryLawful_same same h.memory, fun o ho => ?_, ?_⟩
  · rw [busyEngine_of_engines (place_engines s op)]
    exact h.engines e
  · rw [isWorking_of (place_exchange s op)]
    exact h.link
  · rw [ops, List.mem_singleton] at ho
    subst ho
    exact startLawful_congr same ok
  · unfold State.place
    rw [h.inProgress]
    exact takeOp_Formed s op

/-- Start-up's one operation completes. -/
theorem startIdle_of {s t : State} (h : s.UnitsStarting) (alone : s.store.waiting = [])
    (hw : t.store.waiting = s.store.waiting) (he : t.engines = s.engines) (hx : t.exchange = s.exchange)
    (ho : t.office ≠ .ready) (hp : t.authority.prescaler = 0)
    (hin : t.authority.spent + t.authority.reserved ≤ t.authority.granted) (hm : t.memory.Lawful) : t.finishOp.StartIdle := by
  have idle : t.store.waiting = [] := hw.trans alone
  refine ⟨by simpa using ho, fun e => ?_, ?_, by simpa using hp, by simpa using hin, by simpa using hm, ?_, ?_⟩
  · rw [busyEngine_of_engines (finishOp_engines t), busyEngine_of_engines he]
    exact h.engines e
  · rw [isWorking_of (finishOp_exchange t), isWorking_of hx]
    exact h.link
  · rw [State.finishOp, idle]
  · rw [State.finishOp, idle]
    exact idle

/-- Start-up's one operation completes after a read that leaves the units. -/
theorem startIdle_rows {s t : State} (h : s.UnitsStarting) (alone : s.store.waiting = []) (g : s.RowsOnly t)
    (ho : t.office ≠ .ready) (ha : t.authority = s.authority) : t.finishOp.StartIdle :=
  startIdle_of h alone g.hands.waiting g.hands.engines g.hands.exchange ho (by rw [ha]; exact h.minute)
    (by rw [ha]; exact h.within) (memoryLawful_same g.units h.memory)

theorem sameUnits_finishOp (s : State) : SameUnits s s.finishOp :=
  sameUnits_of (by simp) (by simp) (by simp) (by simp)

theorem readOrFault_notReady {s : State} (id : RowId) (d : Decay) (b : Bool) (h : s.office ≠ .ready) :
    (s.readOrFault id d b).office ≠ .ready := by
  unfold State.readOrFault
  split
  · nofun
  · exact h

theorem readOrFault_authority (s : State) (id : RowId) (d : Decay) (b : Bool) :
    (s.readOrFault id d b).authority = s.authority := by
  unfold State.readOrFault
  split <;> rfl

theorem readOrFault_startIdle {s : State} (id : RowId) (d : Decay) (h : s.UnitsStarting) (alone : s.store.waiting = []) :
    (s.readOrFault id d false).finishOp.StartIdle :=
  startIdle_rows h alone (readOrFault_rowsOnly s id d false) (readOrFault_notReady id d false h.office)
    (readOrFault_authority s id d false)

/-! ### Start-up, operation by operation -/

/-- The units' values come from lawful office rows (R167). -/
theorem unitsTakeValues_startIdle {s : State} (h : s.StartIdle) : s.unitsTakeValues.StartIdle :=
  ⟨h.office, h.engines, h.link, rfl, (Nat.le_trans (by omega) h.memory.1 : s.memory.office.content.spent + 0 ≤ _), h.memory,
    h.inProgress, h.waiting⟩

theorem slotOfRow_fresh (c : Option KeyContent) :
    (slotOfRow c).matches c ∧ (slotOfRow c).state ≠ .changing ∧ (slotOfRow c).inUse = 0 := by
  cases c with
  | none => exact ⟨rfl, nofun, rfl⟩
  | some k => exact ⟨rfl, nofun, rfl⟩

theorem unitsTakeValues_fresh (s : State) : s.unitsTakeValues.UnitsFresh := by
  refine ⟨⟨rfl, rfl, rfl⟩, rfl, fun i => ?_⟩
  have slot : s.unitsTakeValues.slots[i] = slotOfRow (s.memory.keys[i]).content := by
    show (s.memory.keys.map fun r => slotOfRow r.content)[i] = _
    simp
  rw [slot]
  exact slotOfRow_fresh _

theorem officeRowRead_starting {s : State} (id : RowId) (d : Decay) (h : s.UnitsStarting) (alone : s.store.waiting = []) :
    (s.officeRowRead id d).UnitsStarting := by
  have idle := readOrFault_startIdle id d h alone
  unfold State.officeRowRead
  dsimp only
  split
  · exact startIdle_starting idle
  · split
    · exact startIdle_place idle trivial
    · exact startIdle_place (unitsTakeValues_startIdle idle) ⟨unitsTakeValues_fresh _, nofun⟩

/-- After an engine's commit row, with nothing due of it, comes engine B's row or the scan (R160, R168). -/
theorem afterCommitRow_startLawful {s : State} {e : EngineId} (fresh : s.UnitsFresh) (due : s.memory.due e = 0)
    (first : e = .b → s.memory.due .a = 0) : (afterCommitRow e).StartLawful s := by
  cases e with
  | a => exact ⟨fresh, fun _ => due⟩
  | b =>
    refine ⟨fresh, fun e => ?_⟩
    cases e
    · exact first rfl
    · exact due

theorem commitRowRead_starting {s : State} {e : EngineId} (d : Decay) (h : s.UnitsStarting) (alone : s.store.waiting = [])
    (ok : (RowOp.startCommit e).StartLawful s) : (s.commitRowRead e d).UnitsStarting := by
  obtain ⟨fresh, first⟩ := ok
  have idle := readOrFault_startIdle (.commit e) d h alone
  have same := (readOrFault_rowsOnly s (.commit e) d false).units.trans (sameUnits_finishOp _)
  unfold State.commitRowRead
  dsimp only
  split
  · exact startIdle_starting idle
  · split
    · exact startIdle_place idle (startLawful_congr same ⟨fresh, ‹_›, first⟩)
    · rename_i hc
      have due : s.memory.due e = 0 := by rw [RecordMemory.due, hc]
      exact startIdle_place idle (startLawful_congr same (afterCommitRow_startLawful fresh due first))

theorem rollMeterWritten_starting {s : State} {e : EngineId} {m : Marker} (h : s.UnitsStarting) (alone : s.store.waiting = [])
    (ok : (RowOp.rollMeter e m).StartLawful s) : (s.rollMeterWritten e m).UnitsStarting := by
  obtain ⟨fresh, marked, first⟩ := ok
  have written := writeRecord_rowsOnly s m.row m.image
  have idle : (s.writeRecord m.row m.image).finishOp.StartIdle := startIdle_rows h alone written h.office rfl
  have same := written.units.trans (sameUnits_finishOp _)
  obtain ⟨-, -, counts⟩ := fresh.row
  unfold State.rollMeterWritten
  dsimp only
  split
  · rename_i hn
    refine startIdle_place idle (startLawful_congr same ⟨fresh, marked, ?_, first⟩)
    rw [← counts]
    exact fun e => hn e.symm
  · rename_i hn
    have due : s.memory.due e = 0 := by
      rw [RecordMemory.due, marked]
      exact if_pos (not_ne_iff.1 hn).symm
    exact startIdle_place idle (startLawful_congr same ⟨fresh, due, first⟩)

theorem rollOfficeWritten_starting {s : State} {e : EngineId} {m : Marker} (h : s.UnitsStarting)
    (alone : s.store.waiting = []) (hc : s.current = some (.office (.rollForward e m)))
    (ok : (RowOp.office (.rollForward e m)).StartLawful s) : (s.rollOfficeWritten e m).UnitsStarting := by
  obtain ⟨⟨⟨granted, spent, counts⟩, reserved, slots⟩, marked, counted, first⟩ := ok
  obtain ⟨formedGranted, formedSpent, formedCounts⟩ : s.formedRow.granted = s.authority.granted
    ∧ s.formedRow.spent = s.authority.spent + m.tender
    ∧ s.formedRow.commitCounts = s.authority.commitCounts.set e m.count := formed_row h.formed hc
  rw [← counts] at counted formedCounts
  obtain ⟨before, after, other⟩ := writeOffice_spend (r := s.formedRow) marked counted formedCounts
  have lawful : (s.memory.writeOffice s.formedRow).Lawful :=
    writeOffice_spend_lawful h.memory marked counted (formedGranted.trans granted.symm) (by rw [formedSpent, spent])
      formedCounts
  have owed := h.memory.1
  have idle : ({ s.officeWritten with authority := s.authority.spend e m } : State).finishOp.StartIdle := by
    refine startIdle_of h alone rfl rfl rfl h.office h.minute ?_ lawful
    show s.authority.spent + m.tender + s.authority.reserved ≤ s.authority.granted
    rw [reserved, ← granted, ← spent]
    cases e <;> omega
  have fresh : ({ s.officeWritten with authority := s.authority.spend e m } : State).UnitsFresh :=
    ⟨⟨formedGranted, formedSpent, by rw [counts] at formedCounts; exact formedCounts⟩, reserved, slots⟩
  refine startIdle_place idle (startLawful_congr (s := { s.officeWritten with authority := s.authority.spend e m })
    (sameUnits_finishOp _) ⟨fresh, after, fun he => ?_⟩)
  subst he
  exact (other .a (by decide)).trans (first rfl)

theorem rollCleared_starting {s : State} {e : EngineId} (h : s.UnitsStarting) (alone : s.store.waiting = [])
    (ok : (RowOp.rollClear e).StartLawful s) : (s.rollCleared e).UnitsStarting := by
  obtain ⟨⟨row, reserved, slots⟩, -, first⟩ := ok
  have idle : (s.commitRowSet e none).finishOp.StartIdle :=
    startIdle_of h alone rfl rfl rfl h.office h.minute h.within (writeCommit_none_lawful e h.memory)
  refine startIdle_place idle (startLawful_congr (s := s.commitRowSet e none) (sameUnits_finishOp _)
    (afterCommitRow_startLawful ⟨row, reserved, slots⟩ (due_writeCommit_none _ e) fun he => ?_))
  subst he
  exact (due_writeCommit_other s.memory none (by decide)).trans (first rfl)

/-- With every row scanned and nothing due the office is READY, and the law of the units is that of a running office (R171). -/
theorem readied_unitsDone {s : State} (h : s.StartIdle) (fresh : s.UnitsFresh) (due : ∀ e, s.memory.due e = 0) :
    s.readied.UnitsDone := by
  have nothing : ∀ e, s.readied.holds e = ([], 0) := fun e => holds_none (h.engines e)
  have empty : s.readied.store.operations = [] := by
    show s.store.operations = []
    rw [Store.operations, h.inProgress, h.waiting]
    rfl
  obtain ⟨row, reserved, slots⟩ := fresh
  refine ⟨⟨nofun, h.within, ?_, row, fun e => (due e).le.trans (Nat.zero_le _), h.memory.2, fun i => (slots i).1, fun i => ?_,
    fun e i hi => ?_, fun i hi => absurd hi (slots i).2.1, fun op hop => ?_⟩, fun o w ho => ?_⟩
  · rw [nothing, nothing]
    exact reserved
  · rw [nothing, nothing]
    exact (slots i).2.2
  · rw [nothing] at hi
    cases hi
  · rw [empty] at hop
    cases hop
  · rw [show s.readied.store.inProgress = none from h.inProgress] at ho
    cases ho

theorem enterReady_unitsDone {s : State} (h : s.StartIdle) (fresh : s.UnitsFresh) (due : ∀ e, s.memory.due e = 0) :
    s.enterReady.UnitsDone := by
  have idle : s.readied.store.inProgress = none → s.readied.store.waiting = [] := fun _ => h.waiting
  refine (enterReady_ind (P := fun t => t.UnitsDone ∧ (t.store.inProgress = none → t.store.waiting = []))
    ⟨readied_unitsDone h fresh due, idle⟩ (fun t ht => ⟨same_unitsDone ht.1 rfl rfl rfl rfl rfl rfl rfl, ht.2⟩)
    (fun t ht => ⟨checkOverdue_unitsDone ht.2 ht.1, ?_⟩)
    (fun t ht => ⟨same_unitsDone ht.1 rfl rfl rfl rfl rfl rfl rfl, ht.2⟩)).1
  unfold State.checkOverdue
  split
  · exact fun hn => absurd hn (place_inProgress _ _)
  · exact ht.2

theorem rowScanned_units {s : State} {n : Nat} (d : Decay) (h : s.UnitsStarting) (alone : s.store.waiting = [])
    (ok : (RowOp.scan n).StartLawful s) : (s.rowScanned n d).UnitsStarting ∨ (s.rowScanned n d).UnitsDone := by
  obtain ⟨fresh, due⟩ := ok
  have found := scanFindings_rowsOnly s n d
  have plain := scanFindings_ops s n d
  have idle : (s.scanFindings n d).finishOp.StartIdle :=
    startIdle_rows h alone found (by rw [plain.office]; exact h.office) plain.authority
  have same := found.units.trans (sameUnits_finishOp _)
  unfold State.rowScanned
  dsimp only
  split
  · exact .inl (startIdle_place idle (startLawful_congr (op := .scan (n + 1)) same ⟨fresh, due⟩))
  · exact .inr (enterReady_unitsDone idle (fresh_congr same fresh) fun e => (due_congr same e).trans (due e))

/-- Every completion of start-up keeps its law, or ends it with the office READY. -/
theorem completion_starting {s : State} (d : Decay) {op : RowOp} (h : s.UnitsStarting) (r : s.store.RowsLawful)
    (hc : s.current = some op) : (s.completion d op).UnitsStarting ∨ (s.completion d op).UnitsDone := by
  have alone := starting_alone h r hc
  have ok := h.ops op (by rw [ops_current hc]; exact List.mem_cons_self)
  cases op with
  | startOffice id => exact .inl (officeRowRead_starting id d h alone)
  | startCommit e => exact .inl (commitRowRead_starting d h alone ok)
  | rollMeter e m => exact .inl (rollMeterWritten_starting h alone ok)
  | rollClear e => exact .inl (rollCleared_starting h alone ok)
  | scan n => exact rowScanned_units d h alone ok
  | office w =>
    cases w with
    | rollForward e m => exact .inl (rollOfficeWritten_starting h alone hc ok)
    | _ => exact ok.elim
  | _ => exact ok.elim

end Sys2Proof.Machine
end

section
/-! Proofs: every step keeps the law of the units, across resets too, and from every lawful state each step is safe. -/
namespace Sys2Proof.Machine

open Sys2Proof

/-! ### Record memory as a reset finds it (R147) -/

/-- Record memory can be started from between any two commands (R132, R160). -/
theorem units_memoryLawful {s : State} (h : s.UnitsStarting ∨ s.UnitsDone) : s.memory.Lawful := by
  rcases h with h | h
  · exact h.memory
  · exact ⟨ledger h.1, h.1.rows⟩

/-- An office write that lands is what its completion would have written (R128, R147). -/
theorem landedOffice_lawful {s : State} {w : OfficeWrite} (h : s.UnitsStarting ∨ s.UnitsDone)
    (hc : s.current = some (.office w)) : (s.memory.writeOffice s.formedRow).Lawful := by
  have lawful := units_memoryLawful h
  have mem : RowOp.office w ∈ s.store.operations := by rw [ops_current hc]; exact List.mem_cons_self
  rcases h with h | h
  · have ok := h.ops _ mem
    obtain ⟨granted, spent, counts⟩ := formed_row h.formed hc
    cases w with
    | rollForward e m =>
      obtain ⟨⟨⟨agreed, agreedSpent, agreedCounts⟩, -⟩, marked, counted, -⟩ := ok
      exact writeOffice_spend_lawful lawful marked (by rw [agreedCounts]; exact counted) (granted.trans agreed.symm)
        (spent.trans (congrArg (· + m.tender) agreedSpent.symm)) (counts.trans (by rw [agreedCounts]; rfl))
    | _ => exact ok.elim
  · have ok := current_Ok h hc
    obtain ⟨granted, spent, counts⟩ := formed_row h.2 hc
    obtain ⟨agreed, agreedSpent, agreedCounts⟩ := h.1.agree
    cases w with
    | commit e m =>
      obtain ⟨-, count, marked⟩ := ok
      exact writeOffice_spend_lawful lawful marked (by rw [agreedCounts, count]; exact ne_succ _) (granted.trans agreed.symm)
        (spent.trans (congrArg (· + m.tender) agreedSpent.symm)) (counts.trans (by rw [agreedCounts]; rfl))
    | rollForward e m => cases (show some 2 = none from ok)
    | grant amount serial =>
      exact writeOffice_lawful lawful (by rw [granted, agreed]; exact Nat.le_add_right _ _) (spent.trans agreedSpent.symm)
        (counts.trans agreedCounts.symm)
    | _ =>
      exact writeOffice_lawful lawful (by rw [granted, agreed]; exact le_refl _) (spent.trans agreedSpent.symm)
        (counts.trans agreedCounts.symm)

theorem scrubbed_memoryLawful {s : State} (id : RowId) (d : Decay) (h : s.memory.Lawful) : (s.scrubbed id d).memory.Lawful := by
  have other : (s.readOrFault id d true).finishOp.memory.Lawful := by
    rw [finishOp_memory]
    exact memoryLawful_same (readOrFault_rowsOnly s id d true).units h
  unfold State.scrubbed
  split
  · rename_i n
    have found := memoryLawful_same (scrubFindings_rowsOnly s n d).units h
    dsimp only
    rw [advanceScrubber_memory, finishOp_memory]
    exact found
  · exact other

theorem recordDone_memoryLawful {s : State} (op : RecordOp) (row : Option Nat) (d : Decay) (h : s.memory.Lawful) :
    (s.recordDone op row d).memory.Lawful := by
  obtain ⟨u, c, b, hu, e⟩ := recordDone_replied s op row d
  rw [e, respond_memory, finishOp_memory]
  exact memoryLawful_same hu.units h

/-- A key write that lands is what its completion would have written (R66, R147). -/
theorem landedKey_lawful {s : State} {op : RowOp} (w : s.WorkDone) (h : s.UnitsStarting ∨ s.UnitsDone)
    (hc : s.current = some op) (hk : op.keySlot.isSome) : (s.completion {} op).memory.Lawful := by
  rcases h with h | h
  · have ok := h.ops op (by rw [ops_current hc]; exact List.mem_cons_self)
    unfold RowOp.keySlot at hk
    split at hk
    · exact ok.elim
    · exact ok.elim
    · cases hk
  · exact units_memoryLawful (.inr (completion_unitsDone {} w h hc))

/-- Record memory can be started from, with the write in progress wholly old or wholly new (R147, R165). -/
theorem landedMemory_lawful {s : State} (d : Decay) (w : s.WorkDone) (h : s.UnitsStarting ∨ s.UnitsDone) :
    (s.landedMemory d).Lawful := by
  have lawful := units_memoryLawful h
  unfold State.landedMemory
  split
  · exact lawful
  · rename_i o ho
    obtain ⟨op, office, row⟩ := o
    have hc : s.current = some op := by rw [State.current, ho]; rfl
    dsimp only
    cases op with
    | itemRead e m => exact memoryLawful_same (readMeter_rowsOnly s m d).units lawful
    | counterRead lane q => exact memoryLawful_same (readMeter_rowsOnly s q.meter d).units lawful
    | record r => exact recordDone_memoryLawful r row d lawful
    | scrub id => exact scrubbed_memoryLawful id d lawful
    | commitMarker e m => exact lawful
    | commitMeter e m => exact lawful
    | commitClear e => exact writeCommit_none_lawful e lawful
    | office f => exact landedOffice_lawful h hc
    | setTariff i bank => exact lawful
    | clearTariff i => exact lawful
    | loadKey slot k =>
      have written := landedKey_lawful w h hc rfl
      rw [State.completion, State.keyWritten, respond_memory, finishOp_memory] at written
      exact written
    | dropKey slot g =>
      have written := landedKey_lawful w h hc rfl
      rw [State.completion, State.keyDropped, respond_memory, finishOp_memory] at written
      exact written
    | setLane named given names => exact lawful
    | startOffice id => exact memoryLawful_same (readPlainRow_rowsOnly s id d).units lawful
    | startCommit e => exact memoryLawful_same (readPlainRow_rowsOnly s (.commit e) d).units lawful
    | rollMeter e m => exact lawful
    | rollClear e => exact writeCommit_none_lawful e lawful
    | scan n => exact memoryLawful_same (readWords_rowsOnly s n d).units lawful

/-- A reset begins start-up (R165, R166). -/
theorem restart_starting (s : State) {m : RecordMemory} (h : m.Lawful) : (s.restart m).UnitsStarting := by
  refine ⟨nofun, fun e => by cases e <;> rfl, rfl, rfl, Nat.le_refl 0, h, fun op hop => ?_, fun o w ho hw => ?_⟩
  · rw [show (s.restart m).store.operations = [.startOffice .office] from rfl, List.mem_singleton] at hop
    subst hop
    trivial
  · cases ho
    cases hw

/-! ### Steps while the office is not READY yet -/

theorem settleMinute_of_prescaler {s : State} (h : s.authority.prescaler = 0) : s.settleMinute = s := by
  unfold State.settleMinute Authority.minuteDue
  rw [h]
  rfl

/-- With no minute step due a TICK's expiries change the lanes alone. -/
theorem settleTick_starting {s : State} (h : s.UnitsStarting) : s.settleTick = s.settleLanes :=
  settleMinute_of_prescaler (s := s.settleLanes) h.minute

/-- Steps that change neither the units nor the work in hand. -/
theorem sameStarting {s t : State} (h : s.UnitsStarting) (ho : t.office = s.office) (ha : t.authority = s.authority)
    (hm : t.memory = s.memory) (hk : t.slots = s.slots) (he : ∀ e, t.busyEngine e = s.busyEngine e)
    (hx : t.isWorking = false) (hi : t.store.inProgress = s.store.inProgress) (hw : t.store.waiting = s.store.waiting) :
    t.UnitsStarting :=
  unitsStarting_congr h (sameUnits_of ho ha hm hk) (by rw [ho]; exact h.office) he hx (by rw [ha]; exact h.minute) hi hw

theorem respond_notWorking (s : State) (c : ResultCode) (b : ReplyBody) : (s.respond c b).isWorking = false := by
  unfold State.respond
  cases hx : s.exchange with
  | working lane h overlap => rfl
  | idle => exact notWorking hx
  | replyReady r => rw [State.isWorking, hx]

theorem discardFrame_notWorking {s : State} (h : s.isWorking = false) : s.discardFrame.isWorking = false := by
  unfold State.discardFrame
  cases hx : s.exchange with
  | idle => exact notWorking hx
  | working lane hd overlap => rw [State.isWorking, hx] at h; cases h
  | replyReady r => rfl

/-- A request is refused until the office is READY (R176). -/
theorem requested_starting {s t : State} (h : s.UnitsStarting) (g : s.Requested t) : t.UnitsStarting := by
  cases g with
  | held => exact h
  | overlapped =>
    exact sameStarting h (by simp) (by simp) (by simp) (by simp) (busyEngine_of_engines (by simp))
      (discardFrame_notWorking h.link) (by simp) (by simp)
  | refused lane hd u c b hi hu =>
    rw [settleTick_starting h] at hu
    have same : u.engines = s.engines := by rw [hu]; rfl
    exact sameStarting h (by rw [respond_office, hu]; rfl) (by rw [respond_authority, hu]; rfl)
      (by rw [respond_memory, hu]; rfl) (by rw [respond_slots, hu]; rfl)
      (busyEngine_of_engines ((respond_engines u c b).trans same)) (respond_notWorking u c b)
      (by rw [respond_store, hu]; rfl) (by rw [respond_store, hu]; rfl)
  | taken lane hd t hi ho => exact absurd ho h.office

theorem ticked_starting {s : State} (h : s.UnitsStarting) : s.settleTick.pulse.UnitsStarting := by
  rw [settleTick_starting h, State.pulse, if_neg (show ¬ s.settleLanes.office = .ready from h.office)]
  exact sameStarting h rfl rfl rfl rfl (fun _ => rfl) h.link rfl rfl

theorem deriveSupply_starting {s : State} (h : s.UnitsStarting) : s.deriveSupply.UnitsStarting := by
  unfold State.deriveSupply
  dsimp only
  split
  · exact h
  · exact sameStarting h rfl rfl rfl rfl (follow_busyEngine rfl) h.link rfl rfl

/-- No verification is in hand while the link waits for no answer. -/
theorem starting_noVerification {s : State} {r : CipherRequest} (h : s.UnitsStarting) (w : s.WorkDone)
    (hb : s.cipher.busy = some r) (hr : r.engine = none) : False := by
  have link := (complete_work_link w hb hr).link
  rw [show s.completeCipher.isWorking = false from h.link] at link
  cases link

theorem notScrubbing {s : State} (h : s.UnitsStarting) (hr : s.scrubberRuns = true) : False := by
  simp only [State.scrubberRuns, Bool.and_eq_true, beq_iff_eq] at hr
  exact h.office hr.1.1

/-- Until start-up is over each step keeps its law, or ends it with the office READY. -/
theorem stepped_starting {s t : State} (g : s.Stepped t) (w : s.WorkDone) (r : s.store.RowsLawful) (h : s.UnitsStarting) :
    t.UnitsStarting ∨ t.UnitsDone := by
  cases g with
  | idle => exact .inl h
  | requested t g _ => exact .inl (requested_starting h g)
  | unknownLane hd code hi => exact .inl (sameStarting h rfl rfl rfl rfl (fun _ => rfl) rfl rfl rfl)
  | replyRead r hr => exact .inl (sameStarting h rfl rfl rfl rfl (fun _ => rfl) rfl rfl rfl)
  | ticked => exact .inl (ticked_starting h)
  | expired lane => exact .inl (sameStarting h rfl rfl rfl rfl (fun _ => rfl) h.link rfl rfl)
  | minute => exact .inl (by rw [settleMinute_of_prescaler h.minute]; exact h)
  | supplied mainsOk pwrWarn =>
    exact .inl (deriveSupply_starting (s := { s with mainsOk := mainsOk, pwrWarn := pwrWarn })
      (sameStarting h rfl rfl rfl rfl (fun _ => rfl) h.link rfl rfl))
  | restarted m hm =>
    refine .inl (restart_starting s ?_)
    rcases hm with rfl | ⟨d, rfl⟩
    · exact h.memory
    · exact landedMemory_lawful d w (.inl h)
  | resetAsserted => exact .inl (sameStarting h rfl rfl rfl rfl (fun _ => rfl) h.link rfl rfl)
  | dispatched e lane he =>
    simp only [State.eligible, Bool.and_eq_true, beq_iff_eq] at he
    exact absurd he.1.1.1.1.1 h.office
  | claimGranted c hc =>
    obtain ⟨-, b, hb, -⟩ := unwait_work w hc
    rw [h.engines] at hb
    cases hb
  | supervisorRetaken op ho =>
    have link := (supervisorFreed_work w ho).link
    rw [show s.supervisorFreed.isWorking = false from h.link] at link
    cases link
  | monthAdvanced => exact .inl (sameStarting h rfl rfl rfl rfl (fun _ => rfl) h.link rfl rfl)
  | rowPassed hr => exact (notScrubbing h hr).elim
  | rowClaimed n m hr => exact (notScrubbing h hr).elim
  | rowVisited id hr => exact (notScrubbing h hr).elim
  | tokenComputed e m p t hb =>
    obtain ⟨b, hbusy, -⟩ := cipher_engine w hb rfl
    rw [h.engines] at hbusy
    cases hbusy
  | grantVerified f hb => exact (starting_noVerification h w hb rfl).elim
  | loadKeyVerified f hb => exact (starting_noVerification h w hb rfl).elim
  | restoreVerified f hb => exact (starting_noVerification h w hb rfl).elim
  | completed op d hc => exact completion_starting d h r hc

/-! ### Steps after start-up -/

theorem placeScrub_unitsDone {s : State} (id : RowId) (w : s.WorkDone) (h : s.UnitsDone) : (s.placeScrub id).UnitsDone :=
  placePlain_unitsDone (s := { s with store := { s.store with scrubber := { s.store.scrubber with reading := true } } })
    (workExcept_same w rfl rfl rfl rfl rfl rfl) (same_unitsDone h rfl rfl rfl rfl rfl rfl rfl) rfl rfl rfl

/-- After start-up each step keeps the law of the units, or a reset begins start-up again. -/
theorem stepped_running {s t : State} (g : s.Stepped t) (w : s.WorkDone) (h : s.UnitsDone) :
    t.UnitsStarting ∨ t.UnitsDone := by
  cases g with
  | idle => exact .inr h
  | requested t g _ => exact .inr (requested_units w h g)
  | unknownLane hd code => exact .inr (same_unitsDone h rfl rfl rfl rfl rfl rfl rfl)
  | replyRead r => exact .inr (same_unitsDone h rfl rfl rfl rfl rfl rfl rfl)
  | ticked => exact .inr (ticked_unitsDone w h)
  | expired lane => exact .inr (same_unitsDone h rfl rfl rfl rfl rfl rfl rfl)
  | minute => exact .inr (settleMinute_unitsDone w h)
  | supplied mainsOk pwrWarn =>
    exact .inr (deriveSupply_unitsDone (s := { s with mainsOk := mainsOk, pwrWarn := pwrWarn })
      (same_unitsDone h rfl rfl rfl rfl rfl rfl rfl))
  | restarted m hm =>
    refine .inl (restart_starting s ?_)
    rcases hm with rfl | ⟨d, rfl⟩
    · exact units_memoryLawful (.inr h)
    · exact landedMemory_lawful d w (.inr h)
  | resetAsserted => exact .inr (same_unitsDone h rfl rfl rfl rfl rfl rfl rfl)
  | dispatched e lane he => exact .inr (dispatchTo_unitsDone w h he)
  | claimGranted c hc => exact .inr (claimGranted_unitsDone w h hc)
  | supervisorRetaken op =>
    exact .inr (consultLocks_unitsDone (s := s.supervisorFreed) (same_unitsDone h rfl rfl rfl rfl rfl rfl rfl) w.store)
  | monthAdvanced => exact .inr (same_unitsDone h rfl rfl rfl rfl rfl rfl rfl)
  | rowPassed => exact .inr (same_unitsDone h rfl rfl rfl rfl rfl rfl rfl)
  | rowClaimed n m =>
    exact .inr (placeScrub_unitsDone (s := s.scrubberClaim m) _ (workExcept_congr w rfl rfl rfl rfl rfl rfl rfl)
      (same_unitsDone h rfl rfl rfl rfl rfl rfl rfl))
  | rowVisited id => exact .inr (placeScrub_unitsDone id w h)
  | tokenComputed e m p t hb => exact .inr (tokenComputed_unitsDone t w h hb)
  | grantVerified f => exact .inr (grantVerified_unitsDone w h)
  | loadKeyVerified f hb => exact .inr (loadKeyVerified_unitsDone w h hb)
  | restoreVerified f => exact .inr (restoreVerified_unitsDone w h)
  | completed op d hc => exact .inr (completion_unitsDone d w h hc)

/-- Every step keeps the law of the units. -/
theorem stepped_units {s t : State} (g : s.Stepped t) (w : s.WorkDone) (r : s.store.RowsLawful) (h : s.UnitsLawful) :
    t.UnitsLawful := by
  have next : t.UnitsStarting ∨ t.UnitsDone := by
    rcases h with h | h
    · exact stepped_starting g w r h
    · exact stepped_running g w ((unitsLive_iff s).1 h)
  exact next.imp id (unitsLive_iff t).2

/-! ### All laws -/

/-- Every step goes from a lawful state to a lawful state. -/
theorem stepped_lawful {s t : State} (g : s.Stepped t) (h : s.Lawful) : t.Lawful := by
  obtain ⟨memory, tables, rows, supply, locks, lanes, work, units⟩ := h
  have keeps := stepped_keeps g
  have done := (workLawful_iff s).1 work
  exact ⟨keeps.memory memory, keeps.tables tables, stepped_rows g rows, keeps.supply supply, keeps.locks locks,
    stepped_lanes g lanes, (workLawful_iff t).2 (stepped_work g done), stepped_units g done rows units⟩

/-- The queue of waiting commands bears on no law. -/
theorem lawful_pending {s : State} (cs : List Instr) (h : s.Lawful) : State.Lawful { s with pending := cs } := by
  obtain ⟨memory, tables, rows, supply, locks, lanes, work, units⟩ := h
  refine ⟨memory, tables, rows, supply, locks, lanes, ?_, ?_⟩
  · exact (workLawful_iff _).2 (workExcept_same ((workLawful_iff s).1 work) rfl rfl rfl rfl rfl rfl)
  · rcases units with h | h
    · exact .inl (sameStarting h rfl rfl rfl rfl (fun _ => rfl) h.link rfl rfl)
    · exact .inr ((unitsLive_iff _).2 (same_unitsDone ((unitsLive_iff s).1 h) rfl rfl rfl rfl rfl rfl rfl))

/-- The part has a meaning for every command in every state: no step stops it. -/
theorem step_next (s : State) : ∃ t, step s = .next t := by
  unfold step
  split
  · exact ⟨s, rfl⟩
  · rename_i c rest _
    cases c <;> exact ⟨_, rfl⟩

/-- Settles O60: a step always goes on, by one of the cases of `State.Stepped`, and each case keeps the laws of memory,
tables, rows, supply, locks, lanes, work in hand and units. -/
theorem lawfulStatesStepSafely : Obligations.LawfulStatesStepSafely := by
  intro s h
  obtain ⟨t, e⟩ := step_next s
  refine ⟨t, e, ?_⟩
  rcases step_stepped e with rfl | ⟨rest, g⟩
  · exact h
  · exact stepped_lawful g (lawful_pending rest h)

end Sys2Proof.Machine
end

section
/-! Proofs: the block walk and the stages of the purchase calculation (R39 to R49). -/
namespace Sys2Proof.Machine

open Sys2Proof

/-! ### The price of each tenth -/

/-- The price of the block that a month-to-date energy lies in (R44). -/
def priceAt (last : Nat) (bounded : List Block) (energy : Nat) : Nat :=
  ((bounded.find? fun b => energy < b.threshold).map (·.price)).getD last

/-- What the next `n` tenths cost from an energy on, each at the price of the block it lies in (R44). -/
def costFrom (last : Nat) (bounded : List Block) (energy n : Nat) : Nat :=
  ((List.range n).map fun i => priceAt last bounded (energy + i)).sum

theorem priceAt_of_passed {b : Block} {energy : Nat} (last : Nat) (rest : List Block) (h : b.threshold ≤ energy) :
    priceAt last (b :: rest) energy = priceAt last rest energy := by
  simp [priceAt, Nat.not_lt.2 h]

theorem priceAt_of_inside {b : Block} {energy : Nat} (last : Nat) (rest : List Block) (h : energy < b.threshold) :
    priceAt last (b :: rest) energy = b.price := by
  simp [priceAt, h]

theorem costFrom_succ (last : Nat) (bounded : List Block) (energy n : Nat) :
    costFrom last bounded energy (n + 1) = costFrom last bounded energy n + priceAt last bounded (energy + n) := by
  simp [costFrom, List.range_succ]

theorem costFrom_add (last : Nat) (bounded : List Block) (energy m n : Nat) :
    costFrom last bounded energy (m + n) = costFrom last bounded energy m + costFrom last bounded (energy + m) n := by
  induction n with
  | zero => rfl
  | succ n ih => rw [← Nat.add_assoc, costFrom_succ, costFrom_succ, ih, Nat.add_assoc, Nat.add_assoc]

theorem costFrom_mono (last : Nat) (bounded : List Block) (energy : Nat) {m n : Nat} (h : m ≤ n) :
    costFrom last bounded energy m ≤ costFrom last bounded energy n := by
  obtain ⟨k, rfl⟩ := Nat.exists_eq_add_of_le h
  rw [costFrom_add]
  exact Nat.le_add_right _ _

/-- Tenths at one price. -/
theorem costFrom_const {last : Nat} {bounded : List Block} {energy price n : Nat}
    (h : ∀ i < n, priceAt last bounded (energy + i) = price) : costFrom last bounded energy n = n * price := by
  rw [costFrom, List.map_congr_left (g := fun _ => price) fun i hi => h i (List.mem_range.1 hi)]
  simp

/-- The tenths inside the first block. -/
theorem costFrom_of_inside {b : Block} {energy n : Nat} (last : Nat) (rest : List Block) (h : energy + n ≤ b.threshold) :
    costFrom last (b :: rest) energy n = n * b.price :=
  costFrom_const fun i hi => priceAt_of_inside last rest (by omega)

/-- The tenths beyond the first block. -/
theorem costFrom_of_passed {b : Block} {energy : Nat} (last : Nat) (rest : List Block) (n : Nat) (h : b.threshold ≤ energy) :
    costFrom last (b :: rest) energy n = costFrom last rest energy n := by
  rw [costFrom, List.map_congr_left fun i _ => priceAt_of_passed last rest (Nat.le_add_right_of_le h)]
  rfl

/-! ### The walk -/

/-- What a walk has done when it has bought `n` tenths from `start` on: each was paid at its block's price, the block reached
is the one that the next tenth lies in, and with no price 0 the money left does not reach for that tenth (R44, R45). -/
structure Walk.Buys (w : Walk) (last : Nat) (bounded : List Block) (first start before purse paid n : Nat) : Prop where
  bought : w.bought = before + n
  energy : w.energy = start + n
  money : w.money + costFrom last bounded start n = purse
  cost : w.cost = paid + costFrom last bounded start n
  block : w.block = first + (bounded.takeWhile fun b => b.threshold ≤ start + n).length
  short : (∀ b ∈ bounded, 0 < b.price) → 0 < last → w.money < priceAt last bounded (start + n)

/-- A walk that stops at the price of the block it is in. -/
theorem stop_buys {last : Nat} {bounded : List Block} {price block first start before purse paid : Nat}
    (inside : ∀ i ≤ purse / price, priceAt last bounded (start + i) = price)
    (here : block = first + (bounded.takeWhile fun b => b.threshold ≤ start + purse / price).length)
    (positive : (∀ b ∈ bounded, 0 < b.price) → 0 < last → 0 < price) :
    (Walk.stop price block start before purse paid).Buys last bounded first start before purse paid (purse / price) := by
  have cost : costFrom last bounded start (purse / price) = purse / price * price := costFrom_const fun i hi => inside i hi.le
  refine ⟨rfl, rfl, ?_, by rw [cost]; rfl, here, fun hb hl => ?_⟩
  · rw [cost]
    exact Nat.sub_add_cancel (Nat.div_mul_le_self purse price)
  · rw [inside _ le_rfl]
    show purse - purse / price * price < price
    rw [← Nat.mod_eq_sub_div_mul]
    exact Nat.mod_lt purse (positive hb hl)

/-- A walk that passes the first block buys nothing in it. -/
theorem Walk.Buys.pass {w : Walk} {b : Block} {rest : List Block} {last first start before purse paid n : Nat}
    (h : w.Buys last rest (first + 1) start before purse paid n) (passed : b.threshold ≤ start) :
    w.Buys last (b :: rest) first start before purse paid n := by
  have later : b.threshold ≤ start + n := Nat.le_add_right_of_le passed
  refine ⟨h.bought, h.energy, ?_, ?_, ?_, fun hb hl => ?_⟩
  · rw [costFrom_of_passed last rest n passed, h.money]
  · rw [costFrom_of_passed last rest n passed, h.cost]
  · simp [h.block, later]; omega
  · rw [priceAt_of_passed last rest later]
    exact h.short (fun c hc => hb c (.tail _ hc)) hl

/-- A walk that buys the rest of the first block goes on from its threshold. -/
theorem Walk.Buys.fill {w : Walk} {b : Block} {rest : List Block} {last first start room before purse paid n : Nat}
    (h : w.Buys last rest (first + 1) b.threshold (before + room) (purse - room * b.price) (paid + room * b.price) n)
    (whole : start + room = b.threshold) (full : room * b.price ≤ purse) :
    w.Buys last (b :: rest) first start before purse paid (room + n) := by
  have reached : start + (room + n) = b.threshold + n := by omega
  have cost : costFrom last (b :: rest) start (room + n) = room * b.price + costFrom last rest b.threshold n := by
    rw [costFrom_add, costFrom_of_inside last rest whole.le, whole, costFrom_of_passed last rest n le_rfl]
  refine ⟨?_, ?_, ?_, ?_, ?_, fun hb hl => ?_⟩
  · rw [h.bought, Nat.add_assoc]
  · rw [h.energy, reached]
  · have := h.money
    omega
  · rw [h.cost, cost, Nat.add_assoc]
  · simp [h.block, reached]; omega
  · rw [reached, priceAt_of_passed last rest (Nat.le_add_right _ _)]
    exact h.short (fun c hc => hb c (.tail _ hc)) hl

/-- With money for less than the rest of a block, the division stays inside it. -/
theorem div_lt_of_not_full {room price money : Nat} (h : 0 < room) (less : money < room * price) : money / price < room := by
  rcases Nat.eq_zero_or_pos price with rfl | hp
  · rwa [Nat.div_zero]
  · exact (Nat.div_lt_iff_lt_mul hp).2 less

/-- The walk of R44 buys tenth by tenth, block by block. -/
theorem walkBlocks_buys (last : Nat) (bounded : List Block) (first start before purse paid : Nat) :
    ∃ n, (walkBlocks last bounded first start before purse paid).Buys last bounded first start before purse paid n := by
  induction bounded generalizing first start before purse paid with
  | nil => exact ⟨_, stop_buys (fun _ _ => rfl) rfl fun _ h => h⟩
  | cons b rest ih =>
    by_cases passed : b.threshold ≤ start
    · simp only [walkBlocks, if_pos passed]
      obtain ⟨n, w⟩ := ih (first + 1) start before purse paid
      exact ⟨n, w.pass passed⟩
    · by_cases full : (b.threshold - start) * b.price ≤ purse
      · simp only [walkBlocks, if_neg passed, if_pos full]
        obtain ⟨n, w⟩ := ih (first + 1) b.threshold _ _ _
        exact ⟨_, w.fill (by omega) full⟩
      · simp only [walkBlocks, if_neg passed, if_neg full]
        have fewer : purse / b.price < b.threshold - start := div_lt_of_not_full (by omega) (Nat.not_le.1 full)
        have stay : ¬ b.threshold ≤ start + purse / b.price := by omega
        exact ⟨_, stop_buys (fun i hi => priceAt_of_inside last rest (by omega)) (by simp [stay])
          fun hb _ => hb b List.mem_cons_self⟩

/-- The block a walk starts in is the first whose threshold exceeds the energy (R44, R48). -/
theorem startBlock_eq (bounded : List Block) (block energy : Nat) :
    startBlock bounded block energy = block + (bounded.takeWhile fun b => b.threshold ≤ energy).length := by
  induction bounded generalizing block with
  | nil => rfl
  | cons b rest ih =>
    by_cases h : b.threshold ≤ energy
    · simp [startBlock, h, ih]; omega
    · simp [startBlock, h]

/-! ### The walk of a purchase -/

/-- The millicents that a purchase has for energy (R43). -/
def energyMoney (c : TariffClass) (r : MeterRecord) (tender : Nat) : Nat :=
  let recovered := recovery r.arrears r.recoveryRate tender
  (tender - recovered - collection c.charge r.chargePaid (tender - recovered)) * 1000 + r.carry

/-- The walk of a purchase (R44). -/
def purchaseWalk (c : TariffClass) (r : MeterRecord) (tender : Nat) : Walk :=
  walkBlocks c.lastPrice c.bounded 1 r.monthEnergy 0 (energyMoney c r tender) 0

theorem purchaseWalk_buys (c : TariffClass) (r : MeterRecord) (tender : Nat) :
    (purchaseWalk c r tender).Buys c.lastPrice c.bounded 1 r.monthEnergy 0 (energyMoney c r tender) 0
      (purchaseWalk c r tender).bought := by
  obtain ⟨n, w⟩ := walkBlocks_buys c.lastPrice c.bounded 1 r.monthEnergy 0 (energyMoney c r tender) 0
  have hn : (purchaseWalk c r tender).bought = n := w.bought.trans (Nat.zero_add n)
  rw [hn]
  exact w

/-- A class with one block: the walk is one division. -/
theorem purchaseWalk_of_unbounded {c : TariffClass} (r : MeterRecord) (tender : Nat) (h : c.bounded = []) :
    purchaseWalk c r tender = Walk.stop c.lastPrice 1 r.monthEnergy 0 (energyMoney c r tender) 0 := by
  rw [purchaseWalk, h, walkBlocks]

/-- The money reaches for `n` tenths exactly when the walk buys as many. -/
theorem le_bought_iff {c : TariffClass} (r : MeterRecord) (tender n : Nat) (hb : ∀ b ∈ c.bounded, 0 < b.price)
    (hl : 0 < c.lastPrice) :
    costFrom c.lastPrice c.bounded r.monthEnergy n ≤ energyMoney c r tender ↔ n ≤ (purchaseWalk c r tender).bought := by
  have w := purchaseWalk_buys c r tender
  have paid := w.money
  have short := w.short hb hl
  constructor
  · intro h
    by_contra more
    have next := costFrom_mono c.lastPrice c.bounded r.monthEnergy (Nat.not_le.1 more)
    rw [Nat.succ_eq_add_one, costFrom_succ] at next
    omega
  · intro h
    have := costFrom_mono c.lastPrice c.bounded r.monthEnergy h
    omega

/-! ### The stages -/

/-- A purchase goes beyond one of the caps (R46). -/
def overCaps (c : TariffClass) (r : MeterRecord) (tender : Nat) : Prop :=
  999999 < (purchaseWalk c r tender).bought ∨ 9999999 < (purchaseWalk c r tender).energy

/-- The values of a purchase within the caps (R41, R42, R44, R45, R47). -/
def paidValues (c : TariffClass) (r : MeterRecord) (tender : Nat) : Calculation :=
  let recovered := recovery r.arrears r.recoveryRate tender
  let collected := collection c.charge r.chargePaid (tender - recovered)
  let w := purchaseWalk c r tender
  { recovered := recovered, arrears := r.arrears - recovered
    arrearsCleared := decide (0 < r.arrears ∧ r.arrears - recovered = 0)
    collected := collected, chargePaid := r.chargePaid + collected, bought := w.bought, monthEnergy := w.energy
    blockReached := w.block, energyCost := w.cost, carry := w.money, allowance := allowanceDue c r
    allowanceIssued := r.allowanceIssued || (allowanceDue c r).isSome }

theorem calculatePaid_of_over {c : TariffClass} {r : MeterRecord} {tender : Nat} (h : overCaps c r tender) :
    calculatePaid c r tender = .error .amountOverflow :=
  if_pos h

theorem calculatePaid_of_within {c : TariffClass} {r : MeterRecord} {tender : Nat} (h : ¬ overCaps c r tender) :
    calculatePaid c r tender = .ok (paidValues c r tender) :=
  if_neg h

theorem calculatePaid_eq_error_iff (c : TariffClass) (r : MeterRecord) (tender : Nat) :
    calculatePaid c r tender = .error .amountOverflow ↔ overCaps c r tender := by
  by_cases h : overCaps c r tender
  · simp [calculatePaid_of_over h, h]
  · simp [calculatePaid_of_within h, h]

theorem calculatePaid_eq_ok {c : TariffClass} {r : MeterRecord} {tender : Nat} {v : Calculation}
    (h : calculatePaid c r tender = .ok v) : ¬ overCaps c r tender ∧ v = paidValues c r tender := by
  by_cases beyond : overCaps c r tender
  · rw [calculatePaid_of_over beyond] at h
    cases h
  · rw [calculatePaid_of_within beyond] at h
    exact ⟨beyond, (Except.ok.inj h).symm⟩

/-- A tender within the limits goes through stages 2 to 8. -/
theorem calculate_of_paid {c : TariffClass} {tender : Nat} (r : MeterRecord) (h : 0 < tender) (lo : c.tenderMin ≤ tender)
    (hi : tender ≤ c.tenderMax) : calculate c r tender = calculatePaid c r tender := by
  simp only [calculate, if_neg h.ne', if_neg (Nat.not_lt.2 lo), if_neg (Nat.not_lt.2 hi)]

/-- A purchase that completes with a tender above 0 has passed the limits and the caps. -/
theorem calculate_eq_ok {c : TariffClass} {r : MeterRecord} {tender : Nat} {v : Calculation} (h : 0 < tender)
    (hv : calculate c r tender = .ok v) : ¬ overCaps c r tender ∧ v = paidValues c r tender := by
  simp only [calculate, if_neg h.ne'] at hv
  split at hv
  · cases hv
  · split at hv
    · cases hv
    · exact calculatePaid_eq_ok hv

/-- A zero tender that completes moves nothing but the allowance (R48). -/
theorem calculateZero_eq_ok {c : TariffClass} {r : MeterRecord} {v : Calculation} (h : calculateZero c r = .ok v) :
    v.recovered = 0 ∧ v.collected = 0 ∧ v.energyCost = 0 ∧ v.carry = r.carry := by
  simp only [calculateZero] at h
  split at h
  · cases h
  · obtain rfl := Except.ok.inj h
    exact ⟨rfl, rfl, rfl, rfl⟩

/-! ### Conservation -/

/-- At a rate of at most 50 percent the recovery leaves no less than half of the tender (R1, R41). -/
theorem recovery_le {rate : Nat} (arrears tender : Nat) (h : rate ≤ 50) : recovery arrears rate tender ≤ tender := by
  have : tender * rate ≤ tender * 50 := Nat.mul_le_mul_left tender h
  unfold recovery
  omega

/-- Stages 2 to 5 account for the tender and the carry brought in, to the millicent. -/
theorem paidValues_conserve {r : MeterRecord} (c : TariffClass) (tender : Nat) (h : r.recoveryRate ≤ 50) :
    tender * 1000 + r.carry = (paidValues c r tender).recovered * 1000 + (paidValues c r tender).collected * 1000
      + (paidValues c r tender).energyCost + (paidValues c r tender).carry := by
  have w := purchaseWalk_buys c r tender
  have paid := w.money
  have cost := w.cost
  have recovered := recovery_le r.arrears tender h
  have collected : collection c.charge r.chargePaid (tender - recovery r.arrears r.recoveryRate tender)
      ≤ tender - recovery r.arrears r.recoveryRate tender := Nat.min_le_right _ _
  simp only [paidValues, energyMoney] at paid ⊢
  omega

/-- The carry passes through the group and the key change of an item's image. -/
theorem image_carry {w : WorkingValues} {v : Calculation} (r : MeterRecord) (tender : Nat) (h : w.calculation = some v) :
    (w.image r tender).carry = v.carry := by
  have group : ∀ x : MeterRecord, ∀ ts t p, (x.withGroup ts t p).carry = x.carry := fun x ts t p => by
    unfold MeterRecord.withGroup; split <;> rfl
  have keys : ∀ x : MeterRecord, x.rekeyed.carry = x.carry := fun x => by
    unfold MeterRecord.rekeyed; split <;> rfl
  rw [WorkingValues.image, keys, group, h]
  rfl

/-- Settles O38: the walk pays for what it buys out of the money that recovery and collection leave. -/
theorem purchaseConservesMoney : Obligations.PurchaseConservesMoney := by
  intro c r tender v rate hv
  refine ⟨?_, ?_, ?_⟩
  · rcases Nat.eq_zero_or_pos tender with rfl | h
    · obtain ⟨h1, h2, h3, h4⟩ := calculateZero_eq_ok (show calculateZero c r = .ok v from hv)
      simp [h1, h2, h3, h4]
    · obtain ⟨-, rfl⟩ := calculate_eq_ok h hv
      exact paidValues_conserve c tender rate
  · rintro rfl
    exact calculateZero_eq_ok hv
  · rintro w m n count k o hw rfl rfl
    simp only [WorkingValues.marker, WorkingValues.increments, WorkingValues.outcome, Item.tender, hw, image_carry r tender hw,
      and_self]

/-! ### Each tenth's price -/

/-- Settles O39: what `Walk.Buys` says of the walk from block 1 with nothing bought. -/
theorem everyTenthIsBoughtAtItsBlocksPrice : Obligations.EveryTenthIsBoughtAtItsBlocksPrice := by
  intro c r tender v h _ hb hl hv
  obtain ⟨-, rfl⟩ := calculate_eq_ok h hv
  have w := purchaseWalk_buys c r tender
  refine ⟨?_, w.short hb hl, w.energy, ?_⟩
  · exact w.cost.trans (Nat.zero_add _)
  · simp only [paidValues, w.block, w.energy, Nat.add_comm]

/-! ### The rules' stages -/

/-- A zero tender with an allowance or a key change due (R48). -/
theorem calculate_zero_of_due {c : TariffClass} {r : MeterRecord} (h : allowanceDue c r ≠ none ∨ r.pendingGeneration ≠ none) :
    calculate c r 0 = .ok
      { recovered := 0, arrears := r.arrears, arrearsCleared := false, collected := 0, chargePaid := r.chargePaid
        bought := 0, monthEnergy := r.monthEnergy
        blockReached := (c.bounded.takeWhile fun b => b.threshold ≤ r.monthEnergy).length + 1
        energyCost := 0, carry := r.carry, allowance := allowanceDue c r
        allowanceIssued := r.allowanceIssued || (allowanceDue c r).isSome } := by
  rw [Nat.add_comm _ 1, ← startBlock_eq]
  have due : ¬ (allowanceDue c r = none ∧ r.pendingGeneration = none) := fun neither => h.elim (· neither.1) (· neither.2)
  exact if_neg due

/-- Settles O40: the limits and the zero tender by the branches of the calculation, the rest by the values and the caps of a paid
one, the walk by the tenths it reaches for. -/
theorem calculationFollowsItsStages : Obligations.CalculationFollowsItsStages := by
  intro c r tender due
  refine ⟨?_, ?_, fun h => if_pos h, calculate_zero_of_due, ?_⟩
  · rintro ⟨h, low⟩
    simp only [calculate, if_neg h.ne', if_pos low]
  · rintro ⟨h, lo, high⟩
    simp only [calculate, if_neg h.ne', if_neg (Nat.not_lt.2 lo), if_pos high]
  · intro h lo hi recovered collected
    rw [calculate_of_paid r h lo hi]
    refine ⟨?_, ?_, ?_⟩
    · by_cases beyond : overCaps c r tender
      · exact .inl (calculatePaid_of_over beyond)
      · obtain ⟨most, top⟩ := not_or.1 beyond
        exact .inr ⟨_, calculatePaid_of_within beyond, rfl, rfl, by simp [paidValues], rfl, rfl, Nat.not_lt.1 most,
          Nat.not_lt.1 top, rfl, rfl⟩
    · intro single money
      have walk := purchaseWalk_of_unbounded r tender single
      refine ⟨?_, fun v hv => ?_⟩
      · rw [calculatePaid_eq_error_iff, overCaps, walk]
        simp only [Walk.stop, Nat.zero_add]
        rfl
      · obtain ⟨-, rfl⟩ := calculatePaid_eq_ok hv
        simp only [paidValues, walk, Walk.stop, Nat.zero_add]
        exact ⟨rfl, (Nat.mod_eq_sub_div_mul ..).symm⟩
    · intro _ hb hl price
      rw [calculatePaid_eq_error_iff, overCaps, (purchaseWalk_buys c r tender).energy]
      constructor
      · exact fun beyond => ⟨_, (le_bought_iff r tender _ hb hl).2 le_rfl, beyond⟩
      · rintro ⟨n, reach, beyond⟩
        have := (le_bought_iff r tender n hb hl).1 reach
        omega

end Sys2Proof.Machine
end

section
/-! Proofs: the tariff unit's requests, its banks and their rows (R30 to R37). -/
namespace Sys2Proof.Machine

open Sys2Proof

/-! ### Month advances -/

/-- A month advance leaves the advances that still wait. -/
theorem advance_with_advances (t : TariffUnit) (month : Nat) (rest : List Nat) :
    ({ t with advances := rest } : TariffUnit).advance month = { t.advance month with advances := rest } := by
  rcases t with ⟨active, _ | p, advances⟩
  · rfl
  · by_cases h : p.2.effective ≤ month <;> simp [TariffUnit.advance, h]

/-- The pending bank's month is reached (R37). -/
theorem advance_of_reached {t : TariffUnit} {p : Fin 2 × Bank} {month : Nat} (hp : t.pending = some p)
    (h : p.2.effective ≤ month) : t.advance month = { t with active := some p, pending := none } := by
  simp only [TariffUnit.advance, hp, if_pos h]

/-- No pending bank's month is reached (R37). -/
theorem advance_of_later {t : TariffUnit} {month : Nat} (h : ∀ p, t.pending = some p → month < p.2.effective) :
    t.advance month = t := by
  cases hp : t.pending with
  | none => simp only [TariffUnit.advance, hp]
  | some p => simp only [TariffUnit.advance, hp, if_neg (Nat.not_le.2 (h p hp))]

theorem takeAdvance_of_nil {t : TariffUnit} (h : t.advances = []) : t.takeAdvance = t := by
  simp only [TariffUnit.takeAdvance, h]

theorem takeAdvance_of_cons {t : TariffUnit} {month : Nat} {rest : List Nat} (h : t.advances = month :: rest) :
    t.takeAdvance = { t.advance month with advances := rest } := by
  simp only [TariffUnit.takeAdvance, h, advance_with_advances]

theorem settle_of_nil {t : TariffUnit} (h : t.advances = []) : t.settle = t := by
  rcases t with ⟨active, pending, advances⟩
  obtain rfl : advances = [] := h
  rfl

/-- With its oldest advance taken, the unit still settles to the same banks. -/
theorem settle_takeAdvance {t : TariffUnit} {month : Nat} {rest : List Nat} (h : t.advances = month :: rest) :
    t.takeAdvance.settle = t.settle := by
  rw [takeAdvance_of_cons h]
  simp only [TariffUnit.settle, h, List.foldl_cons, advance_with_advances]

theorem settle_advances (t : TariffUnit) : t.settle.advances = [] := by
  induction h : t.advances generalizing t with
  | nil => rw [settle_of_nil h, h]
  | cons month rest ih => rw [← settle_takeAdvance h, ih _ (by rw [takeAdvance_of_cons h])]

/-- The unit that has taken every advance handed to it, one MONTH_ADVANCE at a time (R37, R139). -/
theorem after_monthAdvances (s : State) :
    s.after (List.replicate s.tariff.advances.length .monthAdvance) = s.settleTariff := by
  induction h : s.tariff.advances generalizing s with
  | nil =>
    show s = { s with tariff := s.tariff.settle }
    rw [settle_of_nil h]
  | cons month rest ih =>
    have next : ({ s with tariff := s.tariff.takeAdvance } : State).tariff.advances = rest := by
      show s.tariff.takeAdvance.advances = rest
      rw [takeAdvance_of_cons h]
    show ({ s with tariff := s.tariff.takeAdvance } : State).after (List.replicate rest.length .monthAdvance) = _
    rw [ih _ next, State.settleTariff, settle_takeAdvance h]
    rfl

/-! ### The checks of SET_TARIFF -/

/-- The ranges of R30. -/
structure TariffClass.InRange (c : TariffClass) : Prop where
  tenders : 1 ≤ c.tenderMin ∧ c.tenderMin ≤ c.tenderMax ∧ c.tenderMax ≤ 9999999
  charge : c.charge ≤ 99999
  allowance : c.allowance ≤ 1000
  count : c.bounded.length ≤ 3
  last : 1 ≤ c.lastPrice ∧ c.lastPrice ≤ 99999
  blocks : ∀ b ∈ c.bounded, 1 ≤ b.price ∧ b.price ≤ 99999 ∧ 1 ≤ b.threshold ∧ b.threshold ≤ 9999999
  rising : (c.bounded.map (·.threshold)).Pairwise (· < ·)

theorem pairwise_of_strictlyRising {l : List Nat} (h : strictlyRising l = true) : l.Pairwise (· < ·) := by
  rw [← List.isChain_iff_pairwise]
  induction l with
  | nil => exact .nil
  | cons a l ih =>
    cases l with
    | nil => exact .singleton a
    | cons b l =>
      simp only [strictlyRising, Bool.and_eq_true, decide_eq_true_eq] at h
      exact .cons_cons h.1 (ih h.2)

/-- The blocks that pass the block checks of R33. -/
theorem blocksOf_eq_some {places : List (Nat × Nat)} {bounded : List Block} {last : Nat}
    (h : blocksOf places = some (bounded, last)) :
    bounded.length + 1 = places.length ∧ (1 ≤ last ∧ last ≤ 99999)
      ∧ (∀ b ∈ bounded, 1 ≤ b.price ∧ b.price ≤ 99999 ∧ 1 ≤ b.threshold ∧ b.threshold ≤ 9999999)
      ∧ (bounded.map (·.threshold)).Pairwise (· < ·) := by
  unfold blocksOf at h
  split at h
  · cases h
  · rename_i price threshold before hr
    have whole : places = before.reverse ++ [(price, threshold)] := by simpa using congrArg List.reverse hr
    dsimp only at h
    split at h
    · rename_i checks
      obtain ⟨prices, thresholds, -, rising⟩ := checks
      obtain ⟨rfl, rfl⟩ := Prod.mk.inj (Option.some.inj h)
      simp only [whole, List.all_append, List.all_cons, List.all_nil, Bool.and_eq_true, List.all_eq_true, decide_eq_true_eq,
        and_true] at prices thresholds
      refine ⟨by simp [whole], prices.2, fun b hb => ?_, ?_⟩
      · obtain ⟨p, hp, rfl⟩ := List.mem_map.1 hb
        exact ⟨(prices.1 p hp).1, (prices.1 p hp).2, thresholds p hp⟩
      · simpa [Function.comp_def] using pairwise_of_strictlyRising rising
    · cases h

/-- A class that passes check 3 of R33 is in R30's ranges. -/
theorem classOf_inRange {e : ClassEntry} {c : TariffClass} (h : classOf e = some c) : c.InRange := by
  unfold classOf at h
  split at h
  · rename_i checks
    obtain ⟨lo, -, le, hi, charge, allowance, -, count⟩ := checks
    split at h
    · rename_i bounded last hb
      obtain rfl := Option.some.inj h
      obtain ⟨length, price, blocks, rising⟩ := blocksOf_eq_some hb
      have most : bounded.length + 1 ≤ 4 := length ▸ (List.length_take_le _ _).trans count
      exact ⟨⟨lo, le, hi⟩, charge, allowance, Nat.le_of_succ_le_succ most, price, blocks, rising⟩
    · cases h
  · cases h

/-- The classes that the checks give: one for each entry, defined where the entry is, and in R30's ranges. -/
theorem classesOf_eq_ok {k : Nat} {entries : List (Option ClassEntry)} {cs : List (Option TariffClass)}
    (h : classesOf k entries = .ok cs) :
    List.Forall₂ (fun e c => e.isSome = c.isSome ∧ ∀ t, c = some t → t.InRange) entries cs := by
  induction entries generalizing k cs with
  | nil => obtain rfl := Except.ok.inj h; exact .nil
  | cons e rest ih =>
    cases e with
    | none =>
      simp only [classesOf] at h
      split at h
      · rename_i hrest
        obtain rfl := Except.ok.inj h
        exact .cons ⟨rfl, nofun⟩ (ih hrest)
      · cases h
    | some e =>
      simp only [classesOf] at h
      split at h
      · cases h
      · rename_i hc
        split at h
        · rename_i hrest
          obtain rfl := Except.ok.inj h
          exact .cons ⟨rfl, fun t ht => Option.some.inj ht ▸ classOf_inRange hc⟩ (ih hrest)
        · cases h

theorem readClassEntries_length {n : Nat} {bs rest : List Byte} {entries : List (Option ClassEntry)}
    (h : readClassEntries n bs = some (entries, rest)) : entries.length = n := by
  induction n generalizing bs rest entries with
  | zero => obtain ⟨rfl, -⟩ := Prod.mk.inj (Option.some.inj h); rfl
  | succ n ih =>
    simp only [readClassEntries, Option.bind_eq_bind, Option.bind_eq_some_iff] at h
    obtain ⟨⟨c, mid⟩, -, ⟨cs, tail⟩, hcs, he⟩ := h
    obtain ⟨rfl, -⟩ := Prod.mk.inj (Option.some.inj he)
    rw [List.length_cons, ih hcs]

/-- A number read from a field of two bytes. -/
theorem readNumber_two_le {n : Nat} {bs rest : List Byte} (h : readNumber 2 bs = some (n, rest)) : n ≤ 65535 := by
  unfold readNumber at h
  split at h
  · obtain ⟨rfl, -⟩ := Prod.mk.inj (Option.some.inj h)
    rcases bs with _ | ⟨a, _ | ⟨b, bs⟩⟩
    · contradiction
    · contradiction
    · have := a.isLt
      have := b.isLt
      simp only [List.take_succ_cons, List.take_zero, bytesToNat_two]
      omega
  · cases h

theorem decodeSetTariff_eq_some {body : List Byte} {effective : Nat} {entries : List (Option ClassEntry)}
    (h : decodeSetTariff body = some (effective, entries)) : effective ≤ 65535 ∧ entries.length = 15 := by
  simp only [decodeSetTariff, Option.bind_eq_bind, Option.bind_eq_some_iff] at h
  obtain ⟨⟨month, mid⟩, hm, ⟨cs, tail⟩, hcs, he⟩ := h
  unfold readEnd at he
  split at he
  · obtain ⟨rfl, rfl⟩ := Prod.mk.inj (Option.some.inj he)
    exact ⟨readNumber_two_le hm, readClassEntries_length hcs⟩
  · cases he

/-- The classes of a bank with a defined entry, by their places (R30, R31). -/
theorem checked_classes {k : Nat} {entries : List (Option ClassEntry)} {cs : List (Option TariffClass)}
    (h : classesOf k entries = .ok cs) (length : entries.length = 15) (defined : ¬ entries.all (·.isNone) = true) :
    (∃ i : Fin 15, (cs[i.val]?).join ≠ none) ∧ ∀ (i : Fin 15) (c : TariffClass), (cs[i.val]?).join = some c → c.InRange := by
  obtain ⟨same, each⟩ := List.forall₂_iff_get.1 (classesOf_eq_ok h)
  have place : ∀ i : Fin 15, ∃ e ∈ entries[i.val]?, ∃ c ∈ cs[i.val]?, e.isSome = c.isSome ∧ ∀ t, c = some t → t.InRange :=
    fun i => by
      have he : i.val < entries.length := length.symm ▸ i.isLt
      exact ⟨_, List.getElem?_eq_getElem he, _, List.getElem?_eq_getElem (same ▸ he), each i.val he (same ▸ he)⟩
  constructor
  · obtain ⟨e, mem, some⟩ : ∃ e ∈ entries, e.isSome = true := by simpa [Option.isSome_iff_ne_none] using defined
    obtain ⟨n, hn, rfl⟩ := List.getElem_of_mem mem
    obtain ⟨e, he, c, hc, agree, -⟩ := place ⟨n, length ▸ hn⟩
    refine ⟨⟨n, length ▸ hn⟩, ?_⟩
    rw [Option.mem_def.1 hc]
    rw [List.getElem?_eq_getElem hn] at he
    obtain rfl := Option.some.inj he
    rw [some] at agree
    exact Option.isSome_iff_ne_none.1 agree.symm
  · intro i t ht
    obtain ⟨-, -, c, hc, -, range⟩ := place i
    rw [Option.mem_def.1 hc] at ht
    exact range t ht

/-- A bank that passes the checks of R33. -/
theorem checkTariff_eq_ok {month : Nat} {body : List Byte} {bank : Bank} (h : checkTariff month body = .ok bank) :
    month < bank.effective ∧ bank.effective ≤ 65535 ∧ (∃ i : Fin 15, bank.classes[i] ≠ none)
      ∧ ∀ (i : Fin 15) (c : TariffClass), bank.classes[i] = some c → c.InRange := by
  unfold checkTariff at h
  split at h
  · cases h
  · rename_i effective entries hd
    obtain ⟨top, length⟩ := decodeSetTariff_eq_some hd
    split at h
    · cases h
    · rename_i later
      split at h
      · cases h
      · rename_i entered
        split at h
        · cases h
        · rename_i cs hcs
          obtain rfl := Except.ok.inj h
          obtain ⟨defined, ranges⟩ := checked_classes hcs length entered
          refine ⟨Nat.not_le.1 later, top, by simpa using defined, fun i c hc => ranges i c (by simpa using hc)⟩

/-! ### The requests -/

/-- SET_TARIFF's row: the one that does not give the active bank (R34). -/
theorem writeRow_eq (t : TariffUnit) : t.writeRow = if t.active.map (·.1) = some 0 then 1 else 0 := by
  unfold TariffUnit.writeRow
  cases t.active with
  | none => rfl
  | some p => simp

/-- Settles O36: each request is taken on lane 0 and looks at the banks after the advances; the checks of SET_TARIFF give the
ranges class by class. -/
theorem tariffRequestsAnswer : Obligations.TariffRequestsAnswer := by
  refine ⟨fun tag body s ht => ?_, fun month body bank h => ?_⟩
  · intro reply t
    have settled : t = s.settleTariff := after_monthAdvances s
    rw [settled]
    refine ⟨rfl, settle_advances s.tariff, ?_, ?_, ?_⟩
    · show Host.Outcome.next _ = _
      rw [takeSupervisor_of_takes s _ tag _ ht, State.setTariffRequest, ← writeRow_eq]
      show Host.Outcome.next (match checkTariff s.authority.month body with
        | .error k => (s.working .setTariff 0 tag).respond .badField (.failingClass k)
        | .ok bank => (s.settleTariff.working .setTariff 0 tag).place (.setTariff s.settleTariff.tariff.writeRow bank)) = _
      cases checkTariff s.authority.month body with
      | error n => exact congrArg Host.Outcome.next (working_respond s .setTariff 0 tag .badField _ rfl)
      | ok bank => rfl
    · show Host.Outcome.next _ = _
      rw [takeSupervisor_of_takes s _ tag _ ht]
      show Host.Outcome.next (match s.settleTariff.tariff.pending with
        | some p => (s.settleTariff.working .clearPendingTariff 0 tag).place (.clearTariff p.1)
        | none => (s.settleTariff.working .clearPendingTariff 0 tag).respond .done (.bankCleared false)) = _
      cases s.settleTariff.tariff.pending with
      | none => exact congrArg Host.Outcome.next (working_respond s.settleTariff .clearPendingTariff 0 tag .done _ rfl)
      | some p => rfl
    · show Host.Outcome.next _ = _
      rw [takeSupervisor_of_takes s _ tag _ ht, State.readTariffRequest]
      cases decodeReadTariff body with
      | none => exact congrArg Host.Outcome.next (working_answer s .readTariff 0 tag .badField rfl)
      | some p => exact congrArg Host.Outcome.next (working_respond s .readTariff 0 tag .done _ rfl)
  · obtain ⟨later, top, defined, ranges⟩ := checkTariff_eq_ok h
    refine ⟨later, top, defined, fun i c hc => ?_⟩
    obtain ⟨⟨min, order, max⟩, charge, allowance, count, ⟨positive, price⟩, blocks, rising⟩ := ranges i c hc
    exact ⟨min, order, max, charge, allowance, count, positive, price, blocks, rising⟩

/-! ### Writes, advances and start-up -/

theorem exec_setTariffWriteDone {s : State} {row : Fin 2} {bank : Bank} (hc : s.current = some (.setTariff row bank)) :
    exec .setTariffWriteDone s = .next (s.tariffWritten row bank) := by
  show Host.Outcome.next (match s.current with
    | some (.setTariff row bank) => s.tariffWritten row bank
    | _ => s) = _
  rw [hc]

theorem exec_clearTariffWriteDone {s : State} {row : Fin 2} (hc : s.current = some (.clearTariff row)) :
    exec .clearTariffWriteDone s = .next (s.tariffCleared row) := by
  show Host.Outcome.next (match s.current with
    | some (.clearTariff row) => s.tariffCleared row
    | _ => s) = _
  rw [hc]

/-- A bank is in force at a month already, comes into force at the next, or lies later than both. -/
theorem effective_cases (month e : Nat) : (e ≤ month ∧ e ≤ month + 1 ∧ ¬ month < e ∧ ¬ month + 1 < e)
    ∨ (¬ e ≤ month ∧ e ≤ month + 1 ∧ month < e ∧ ¬ month + 1 < e)
    ∨ (¬ e ≤ month ∧ ¬ e ≤ month + 1 ∧ month < e ∧ month + 1 < e) := by
  omega

/-- R32 and R37 agree: the rows give at the next month the banks that the advance to it leaves, unless both rows lie later than
the month before. -/
theorem startupTariff_succ (rows : Vector (Row (Option Bank)) 2) (month : Nat)
    (h : ∀ p q, rows[0].content = some p → rows[1].content = some q → p.effective ≤ month ∨ q.effective ≤ month) :
    startupTariff rows (month + 1) = (startupTariff rows month).advance (month + 1) := by
  have first : rowBank rows 0 = rows[0].content.map fun b => (0, b) := rfl
  have second : rowBank rows 1 = rows[1].content.map fun b => (1, b) := rfl
  have ways := effective_cases month
  simp only [startupTariff, startupActive, startupPending, first, second]
  cases hp : rows[0].content with
  | none =>
    cases hq : rows[1].content with
    | none => rfl
    | some q => rcases ways q.effective with w | w | w <;> simp [TariffUnit.advance, Option.filter, w]
  | some p =>
    cases hq : rows[1].content with
    | none => rcases ways p.effective with w | w | w <;> simp [TariffUnit.advance, Option.filter, w]
    | some q =>
      have one := h p q hp hq
      rcases ways p.effective with w | w | w
      · rcases ways q.effective with v | v | v
        · by_cases later : p.effective < q.effective <;> simp [TariffUnit.advance, Option.filter, w, v, later]
        · have later : p.effective < q.effective := by omega
          simp [TariffUnit.advance, Option.filter, w, v, later]
        · simp [TariffUnit.advance, Option.filter, w, v]
      · have v := (ways q.effective).resolve_right (by omega)
        have later : ¬ p.effective < q.effective := by omega
        simp [TariffUnit.advance, Option.filter, w, v, later]
      · have v := (ways q.effective).resolve_right (by omega)
        simp [TariffUnit.advance, Option.filter, w, v]

/-- Settles O37: the completions of the two writes, the oldest advance taken, and start-up from the rows. -/
theorem tariffBanksChange : Obligations.TariffBanksChange := by
  refine ⟨fun row bank lane h overlap s he => ⟨fun hc => ?_, fun hc => ?_⟩, fun s => ⟨fun hn => ?_, fun month rest hm => ?_⟩,
    startupTariff_succ⟩
  · rw [exec_setTariffWriteDone hc]
    exact congrArg Host.Outcome.next (finishOp_answer _ lane h overlap .done he rfl)
  · rw [exec_clearTariffWriteDone hc]
    exact congrArg Host.Outcome.next (finishOp_respond _ lane h overlap .done _ he rfl)
  · show Host.Outcome.next { s with tariff := s.tariff.takeAdvance } = _
    rw [takeAdvance_of_nil hn]
  · have taken : exec .monthAdvance s = .next { s with tariff := { s.tariff.advance month with advances := rest } } := by
      rw [← takeAdvance_of_cons hm]
      rfl
    rw [taken]
    constructor
    · rintro ⟨p, hp, reached⟩
      rw [advance_of_reached hp reached, hp]
    · intro later
      rw [advance_of_later later]

end Sys2Proof.Machine
end

section
/-! Proofs: start-up's reads of the office rows and its roll-forward of the commit rows (R149, R152, R160, R167, R168). -/
namespace Sys2Proof.Machine

open Sys2Proof

/-! ### Reads at start-up -/

theorem exec_startupOfficeRowRead {s : State} {id : RowId} (d : Decay) (hc : s.current = some (.startOffice id)) :
    exec (.startupOfficeRowRead d) s = .next (s.officeRowRead id d) := by
  show Host.Outcome.next (match s.current with
    | some (.startOffice id) => s.officeRowRead id d
    | _ => s) = _
  rw [hc]

theorem exec_commitRowRead {s : State} {e : EngineId} (d : Decay) (hc : s.current = some (.startCommit e)) :
    exec (.commitRowRead d) s = .next (s.commitRowRead e d) := by
  show Host.Outcome.next (match s.current with
    | some (.startCommit e) => s.commitRowRead e d
    | _ => s) = _
  rw [hc]

theorem rowLost_eq_true {s : State} {id : RowId} {d : Decay} (h : 0 < ((s.memory.rot id).after d).lost) :
    s.rowLost id d = true :=
  decide_eq_true h

theorem rowLost_eq_false {s : State} {id : RowId} {d : Decay} (h : ((s.memory.rot id).after d).lost = 0) :
    s.rowLost id d = false :=
  decide_eq_false (by omega)

/-- A read that finds an uncorrectable word (R152). -/
theorem readOrFault_of_lost {s : State} {id : RowId} {d : Decay} (byScrubber : Bool) (h : s.rowLost id d = true) :
    s.readOrFault id d byScrubber = (s.readPlainRow id d).enterFault id byScrubber :=
  if_pos h

/-- A read that finds none (R149). -/
theorem readOrFault_of_read {s : State} {id : RowId} {d : Decay} (byScrubber : Bool) (h : s.rowLost id d = false) :
    s.readOrFault id d byScrubber = s.readPlainRow id d := by
  simp only [State.readOrFault, h, Bool.false_eq_true, if_false]

/-- A lost office row stops start-up in FAULT. -/
theorem officeRowRead_of_lost {s : State} {id : RowId} {d : Decay} (h : s.rowLost id d = true) :
    s.officeRowRead id d = ((s.readPlainRow id d).enterFault id false).finishOp := by
  simp only [State.officeRowRead, readOrFault_of_lost false h, h, if_true]

/-- An office row before the last is followed by the next. -/
theorem officeRowRead_of_next {s : State} {id : RowId} {d : Decay} (h : s.rowLost id d = false) (hn : id ≠ .laneSettings) :
    s.officeRowRead id d = (s.readPlainRow id d).finishOp.place (.startOffice (nextPosition id).1) := by
  have next : nextOfficeRow id = some (nextPosition id).1 := by
    cases id with
    | laneSettings => contradiction
    | _ => rfl
  simp only [State.officeRowRead, readOrFault_of_read false h, h, Bool.false_eq_true, if_false, next]

theorem slotOfRow_eq (c : Option KeyContent) : slotOfRow c = match c with
    | some k => ⟨.loaded k.generation k.key, 0⟩
    | none => ⟨.empty, 0⟩ := by
  cases c <;> rfl

/-- After the lane-settings row the units take their values, and the commit rows follow. -/
theorem officeRowRead_of_last {s : State} {d : Decay} (h : s.rowLost .laneSettings d = false) :
    s.officeRowRead .laneSettings d
      = (s.readPlainRow .laneSettings d).finishOp.unitsTakeValues.place (.startCommit .a) := by
  simp only [State.officeRowRead, readOrFault_of_read false h, h, Bool.false_eq_true, if_false, nextOfficeRow]

/-- A lost commit row stops start-up in FAULT. -/
theorem commitRowRead_of_lost {s : State} {e : EngineId} {d : Decay} (h : s.rowLost (.commit e) d = true) :
    s.commitRowRead e d = ((s.readPlainRow (.commit e) d).enterFault (.commit e) false).finishOp := by
  simp only [State.commitRowRead, readOrFault_of_lost false h, h, if_true]

theorem afterCommitRow_eq (e : EngineId) : afterCommitRow e = if e = .a then .startCommit .b else .scan 0 := by
  cases e <;> rfl

/-- A commit row's marker is rolled forward; an empty row is passed. -/
theorem commitRowRead_of_read {s : State} {e : EngineId} {d : Decay} (h : s.rowLost (.commit e) d = false) :
    s.commitRowRead e d = (s.readPlainRow (.commit e) d).finishOp.place (match (s.memory.commits.get e).content with
      | some m => .rollMeter e m
      | none => if e = .a then .startCommit .b else .scan 0) := by
  simp only [State.commitRowRead, readOrFault_of_read false h, h, Bool.false_eq_true, if_false, ← afterCommitRow_eq]
  cases (s.memory.commits.get e).content <;> rfl

/-! ### Roll-forward -/

theorem exec_rollMeterWritten {s : State} {e : EngineId} {m : Marker} (hc : s.current = some (.rollMeter e m)) :
    exec .rollForwardWriteDone s = .next (s.rollMeterWritten e m) := by
  show execRollForwardWriteDone s = _
  simp only [execRollForwardWriteDone, hc]

theorem exec_rollOfficeWritten {s : State} {e : EngineId} {m : Marker}
    (hc : s.current = some (.office (.rollForward e m))) : exec .rollForwardWriteDone s = .next (s.rollOfficeWritten e m) := by
  show execRollForwardWriteDone s = _
  simp only [execRollForwardWriteDone, hc]

theorem exec_rollCleared {s : State} {e : EngineId} (hc : s.current = some (.rollClear e)) :
    exec .rollForwardWriteDone s = .next (s.rollCleared e) := by
  show execRollForwardWriteDone s = _
  simp only [execRollForwardWriteDone, hc]

/-- Settles O57: each read by what it finds in its row, and each of the three writes of a roll-forward. -/
theorem startUpReadsAndRollsForward : Obligations.StartUpReadsAndRollsForward := by
  refine ⟨?_, fun e m s => ⟨fun hc => ?_, fun row hp => ?_, fun hc => ?_⟩⟩
  · rintro id d s t w rfl rfl
    refine ⟨fun hc => ?_, ?_⟩
    · rw [exec_startupOfficeRowRead d hc]
      refine ⟨fun lost => ?_, fun sound => ⟨fun hn => ?_, ?_⟩⟩
      · exact congrArg Host.Outcome.next (officeRowRead_of_lost (rowLost_eq_true lost))
      · exact congrArg Host.Outcome.next (officeRowRead_of_next (rowLost_eq_false sound) hn)
      · rintro rfl row rfl
        rw [officeRowRead_of_last (rowLost_eq_false sound), State.unitsTakeValues]
        simp only [finishOp_memory, slotOfRow_eq]
        rfl
    · rintro e rfl hc
      rw [exec_commitRowRead d hc]
      refine ⟨fun lost => ?_, fun sound => ?_⟩
      · exact congrArg Host.Outcome.next (commitRowRead_of_lost (rowLost_eq_true lost))
      · exact congrArg Host.Outcome.next (commitRowRead_of_read (rowLost_eq_false sound))
  · rw [exec_rollMeterWritten hc, State.rollMeterWritten]
    split <;> rfl
  · have hc : s.current = some (.office (.rollForward e m)) := by rw [State.current, hp]; rfl
    rw [exec_rollOfficeWritten hc, State.rollOfficeWritten, State.officeWritten, State.formedRow, hp]
    rfl
  · rw [exec_rollCleared hc, State.rollCleared, afterCommitRow_eq]

end Sys2Proof.Machine
end

section
/-! Proofs: the state after reset (R74, R145, R165 to R167). -/
namespace Sys2Proof.Machine

open Sys2Proof

/-! ### The laws, part by part -/

theorem reset_condition (n : Nat) : State.reset.store.condition n = .undetermined := rfl

/-- Nothing is indexed or determined yet, and the read of the office row is the one operation (R166, R167). -/
theorem reset_rowsLawful : State.reset.store.RowsLawful := by
  refine ⟨.nil, ⟨nofun, nofun, nofun, fun n => ⟨nofun, nofun⟩, nofun⟩, ?_, by decide, fun _ _ _ _ _ => rfl⟩
  intro o n ho hr
  obtain rfl := Option.some.inj ho
  cases hr

theorem reset_workLawful : State.reset.WorkLawful := by
  refine ⟨nofun, fun _ => rfl, by rintro (_ | _) <;> decide +kernel, ?_, by decide +kernel⟩
  rintro (_ | _) b h <;> cases h

theorem reset_keys (i : SlotId) : (State.reset.memory.keys[i]).content = none := by
  revert i
  decide

/-- Record memory as it left the factory can be started from (R145). -/
theorem reset_memoryLawful : State.reset.memory.Lawful :=
  ⟨by decide, fun i j x y hx _ _ => by rw [reset_keys] at hx; cases hx⟩

theorem reset_unitsStarting : State.reset.UnitsStarting := by
  refine ⟨by decide, by rintro (_ | _) <;> rfl, rfl, rfl, by decide, reset_memoryLawful, ?_, ?_⟩
  · intro op ho
    obtain rfl := List.mem_singleton.1 ho
    trivial
  · intro o w ho hw
    obtain rfl := Option.some.inj ho
    cases hw

/-- Every lane is CLOSED and empty (R74). -/
theorem reset_lane (l : LaneId) : State.reset.lane l = {} := by
  revert l
  decide

theorem reset_lanesLawful : State.reset.LanesLawful := by
  refine ⟨fun l => ?_, .inl rfl, ?_, fun l t e h => ?_, fun l => ?_⟩
  · rw [reset_lane]
    simp only [Lane.Lawful]
    decide
  · rintro (_ | _) b h <;> cases h
  · rw [reset_lane] at h
    cases h
  · rw [reset_lane]
    exact .nil

/-- The reset state obeys every law, with start-up at its first read. -/
theorem reset_lawful : State.reset.Lawful := by
  refine ⟨reset_memory_wf, by simp only [Store.Lawful]; decide, reset_rowsLawful,
    by simp only [State.SupplyLawful]; decide, ?_, reset_lanesLawful, reset_workLawful, .inl reset_unitsStarting⟩
  exact ⟨nofun, nofun⟩

/-! ### The values -/

/-- Settles O14: the laws of the reset state by its parts, and its values as `State.reset` gives them. -/
theorem resetStateIsLawful : Obligations.ResetStateIsLawful := by
  refine ⟨reset_lawful, reset_lane, rfl, by decide, rfl, rfl, by decide, rfl, rfl, rfl, rfl, reset_condition, rfl, rfl, rfl, rfl,
    rfl, fun _ => rfl, rfl, by decide, by decide, ?_, rfl, by decide⟩
  rintro (_ | _) <;> rfl

end Sys2Proof.Machine
end

section
/-! Proofs: what a token group holds, and that no two tokens of a meter read alike (R55 to R64). -/
namespace Sys2Proof.Machine

open Sys2Proof

/-! ### Groups in order, and numbered -/

/-- The key change pair is due when a generation is pending (R55). -/
theorem keyChangePair_kinds (r : MeterRecord) :
    (keyChangePair r).map (·.1) = if r.pendingGeneration = none then [] else [.keyChangeA, .keyChangeB] := by
  unfold keyChangePair
  cases r.pendingGeneration <;> rfl

theorem purchaseGroup_kinds (r : MeterRecord) (v : Calculation) :
    (purchaseGroup r v).map (·.1) = (if r.pendingGeneration = none then [] else [.keyChangeA, .keyChangeB])
      ++ (if v.allowance = none then [] else [.allowance]) ++ (if v.bought = 0 then [] else [.credit]) := by
  have allowance : ((v.allowance.map fun a => (TokenKind.allowance, a)).toList).map (·.1)
      = if v.allowance = none then [] else [.allowance] := by cases v.allowance <;> rfl
  have credit : (if 0 < v.bought then [(TokenKind.credit, v.bought)] else []).map (·.1)
      = if v.bought = 0 then [] else [.credit] := by
    rcases Nat.eq_zero_or_pos v.bought with h | h
    · simp [h]
    · simp [h, Nat.ne_of_gt h]
  rw [purchaseGroup, List.map_append, List.map_append, keyChangePair_kinds, allowance, credit]

theorem serviceGroup_kinds (r : MeterRecord) (kind : TokenKind) (amount : Nat) :
    (serviceGroup r kind amount).map (·.1)
      = (if r.pendingGeneration = none then [] else [.keyChangeA, .keyChangeB]) ++ [kind] := by
  rw [serviceGroup, List.map_append, keyChangePair_kinds]
  rfl

/-- KEY_CHANGE_A carries the pending generation (R59). -/
theorem mem_keyChangePair {r : MeterRecord} {h : Nat} (hp : r.pendingGeneration = some h) :
    (TokenKind.keyChangeA, h) ∈ keyChangePair r := by
  simp [keyChangePair, hp]

/-- The generation of a group's token, by its kind (R58). -/
theorem groupGeneration_eq (r : MeterRecord) (k : TokenKind) :
    groupGeneration r k = if k = .keyChangeA ∨ k = .keyChangeB then r.keyGeneration
      else r.pendingGeneration.getD r.keyGeneration := by
  cases k <;> rfl

/-- Numbering leaves kinds, amounts and their order. -/
theorem numberGroup_content (r : MeterRecord) (sequence : Nat) (group : List (TokenKind × Nat)) :
    (numberGroup r sequence group).map (fun p => (p.kind, p.amount)) = group := by
  induction group generalizing sequence with
  | nil => rfl
  | cons g rest ih => rw [numberGroup, List.map_cons, ih]

/-- A group is numbered upward without gaps (R57). -/
theorem numberGroup_sequences (r : MeterRecord) (sequence : Nat) (group : List (TokenKind × Nat)) :
    (numberGroup r sequence group).map (·.sequence) = List.range' (sequence + 1) group.length := by
  induction group generalizing sequence with
  | nil => rfl
  | cons g rest ih => rw [numberGroup, List.map_cons, ih, List.length_cons, List.range'_succ]

/-- Each token's generation, and what it confirms, follow from its kind (R58, R59). -/
theorem numberGroup_generations (r : MeterRecord) (sequence : Nat) (group : List (TokenKind × Nat)) :
    ∀ p ∈ numberGroup r sequence group, p.generation = groupGeneration r p.kind
      ∧ p.confirms = if p.kind = .keyChangeB then r.pendingGeneration else none := by
  induction group generalizing sequence with
  | nil => nofun
  | cons g rest ih =>
    intro p hp
    rcases List.mem_cons.1 hp with rfl | hp
    · exact ⟨rfl, rfl⟩
    · exact ih _ p hp

/-- Settles O41: the groups by their three parts, the numbering by induction on the group. -/
theorem groupsAreNumberedInOrder : Obligations.GroupsAreNumberedInOrder := by
  intro r v kind amount group
  refine ⟨purchaseGroup_kinds r v, serviceGroup_kinds r kind amount, ?_, fun a ha => ?_, fun hb => ?_, fun h hp => ?_,
    numberGroup_content r _ group, numberGroup_sequences r _ group, fun p hp => ?_⟩
  · simp [serviceGroup]
  · simp [purchaseGroup, ha]
  · simp [purchaseGroup, hb]
  · have pair := mem_keyChangePair hp
    simp [purchaseGroup, serviceGroup, pair]
  · rw [← groupGeneration_eq]
    exact numberGroup_generations r _ group p hp

/-! ### Tokens told apart by their digits -/

/-- The digits written for a number give it back, up to the digits that do not fit. -/
theorem mod_of_natToDigits_eq (count n m : Nat) (h : natToDigits count n = natToDigits count m) :
    n % 10 ^ count = m % 10 ^ count := by
  induction count with
  | zero => simp [Nat.mod_one]
  | succ count ih =>
    obtain ⟨head, tail⟩ := List.cons.inj h
    have digit : n / 10 ^ count % 10 = m / 10 ^ count % 10 := by
      have := congrArg BitVec.toNat head
      simp only [BitVec.toNat_ofNat] at this
      omega
    rw [Nat.mod_pow_succ, Nat.mod_pow_succ, ih tail, digit]

/-- 24 digits tell every two 79-bit values apart (R63). -/
theorem tokenDigits_injective {v w : BitVec 79} (h : tokenDigits v = tokenDigits w) : v = w := by
  have fits : ∀ u : BitVec 79, u.toNat % 10 ^ 24 = u.toNat := fun u =>
    Nat.mod_eq_of_lt (Nat.lt_of_lt_of_le u.isLt (by decide))
  have := mod_of_natToDigits_eq 24 v.toNat w.toNat h
  rw [fits, fits] at this
  exact BitVec.eq_of_toNat_eq this

/-- The sequence field of the clear content stands above its amount and its check value (R61). -/
theorem clearContent_getLsbD (key : Config.MeterKey) (kind sequence amount i : Nat) (hi : i < 27) :
    (clearContent key kind sequence amount).getLsbD (49 + i) = (BitVec.ofNat 27 sequence).getLsbD i := by
  simp only [clearContent, BitVec.getLsbD_append]
  rw [if_neg (by omega), if_neg (by omega), if_pos (by omega)]
  congr 1
  omega

/-- Clear contents with two sequences of at most eight digits differ. -/
theorem sequence_of_clearContent_eq {key : Config.MeterKey} {k l p q a b : Nat} (hp : p ≤ 99999999) (hq : q ≤ 99999999)
    (h : clearContent key k p a = clearContent key l q b) : p = q := by
  have field : BitVec.ofNat 27 p = BitVec.ofNat 27 q := BitVec.eq_of_getLsbD_eq fun i hi => by
    rw [← clearContent_getLsbD key k p a i hi, ← clearContent_getLsbD key l q b i hi, h]
  have := congrArg BitVec.toNat field
  simp only [BitVec.toNat_ofNat] at this
  omega

/-- What a computed token's value is: the permutation of its clear content under the meter key of its generation (R62). -/
theorem computeToken_value {slots : Vector KeySlot 4} {m : MeterNumber} {p : PlannedToken} {t : Token}
    (h : computeToken slots m p = some t) : ∃ key amount, officeKeyOf slots p.generation = some key
      ∧ t.value = Config.permutation (Config.meterKey key m)
        (clearContent (Config.meterKey key m) (tokenKindNumber p.kind) p.sequence amount) := by
  unfold computeToken at h
  split at h
  · rename_i key amount hkey _
    obtain rfl := Option.some.inj h
    exact ⟨key, amount, hkey, rfl⟩
  · cases h

/-- Settles O42: one meter key, whose permutation keeps the two clear contents apart, and the digits keep the values apart. -/
theorem tokensOfOneMeterAreDistinct : Obligations.TokensOfOneMeterAreDistinct := by
  intro slots m p q t u ht hu hg hp hq hne same
  obtain ⟨key, a, hkey, hvalue⟩ := computeToken_value ht
  obtain ⟨key', b, hkey', hvalue'⟩ := computeToken_value hu
  obtain rfl : key = key' := Option.some.inj (by rw [← hkey, ← hkey', hg])
  have values := tokenDigits_injective same
  rw [hvalue, hvalue'] at values
  exact hne (sequence_of_clearContent_eq hp hq ((Config.permutation _).injective values))

end Sys2Proof.Machine
end

section
/-! Proofs: the cipher's arbiter, and the keys that LOAD_KEY, DROP_KEY and READ_KEYS work on (R65 to R73). -/
namespace Sys2Proof.Machine

open Sys2Proof

/-! ### The arbiter -/

theorem request_of_free {c : Cipher} (r : CipherRequest) (h : c.busy = none) : c.request r = c.grant r := by
  simp only [Cipher.request, h]

theorem request_of_busy {c : Cipher} (r : CipherRequest) (h : c.busy ≠ none) :
    c.request r = { c with waiting := c.waiting ++ [r] } := by
  obtain ⟨q, hq⟩ := Option.ne_none_iff_exists'.1 h
  simp only [Cipher.request, hq]

theorem complete_of_alone {c : Cipher} (h : c.waiting = []) : c.complete = { c with busy := none } := by
  simp only [Cipher.complete, h]

theorem complete_of_waiting {c : Cipher} {r : CipherRequest} {rest : List CipherRequest} (h : c.waiting = r :: rest) :
    c.complete = ⟨some r, rest, r.engine.getD c.lastServed⟩ := by
  simp only [Cipher.complete, h, Cipher.grant]

/-- Requests placed with a FREE cipher: the first is granted and the others wait, in the order they are placed. -/
theorem placed_of_free {c : Cipher} (r : CipherRequest) (rest : List CipherRequest) (hb : c.busy = none)
    (hw : c.waiting = []) : (r :: rest).foldl Cipher.request c = ⟨some r, rest, r.engine.getD c.lastServed⟩ := by
  have waits : ∀ (qs ws : List CipherRequest) (l : EngineId),
      qs.foldl Cipher.request ⟨some r, ws, l⟩ = ⟨some r, ws ++ qs, l⟩ := by
    intro qs
    induction qs with
    | nil => simp
    | cons q qs ih =>
      intro ws l
      rw [List.foldl_cons, request_of_busy q (by simp), ih, List.append_assoc]
      rfl
  rw [List.foldl_cons, request_of_free r hb, Cipher.grant, hw, waits]
  rfl

/-- Requests that arrive together at a FREE cipher: the order of the tie decides (R72). -/
theorem arrive_of_free {c : Cipher} {rs rest : List CipherRequest} {r : CipherRequest} (hb : c.busy = none)
    (hw : c.waiting = []) (h : tieOrder c.lastServed rs = r :: rest) :
    c.arrive rs = ⟨some r, rest, r.engine.getD c.lastServed⟩ := by
  rw [Cipher.arrive, h, placed_of_free r rest hb hw]

theorem engine_token (e : EngineId) (m : MeterNumber) (p : PlannedToken) : (CipherRequest.token e m p).engine = some e := rfl

/-- Of one token of each engine and a verification, in any order of arrival, the tie's order is: the engine that was not
served last, the other engine, the verification. -/
theorem tieOrder_of_perm {m n : MeterNumber} {p q : PlannedToken} {r : CipherRequest} {rs : List CipherRequest}
    (l : EngineId) (hr : r.engine = none) (h : rs.Perm [r, .token .a m p, .token .b n q]) :
    tieOrder l rs = match l with
      | .a => [.token .b n q, .token .a m p, r]
      | .b => [.token .a m p, .token .b n q, r] := by
  have only : ∀ (x : Option EngineId) (y : CipherRequest),
      [r, .token .a m p, .token .b n q].filter (·.engine == x) = [y] → rs.filter (·.engine == x) = [y] :=
    fun x y hy => List.perm_singleton.1 (hy ▸ h.filter _)
  have ha := only (some .a) (.token .a m p) (by simp [hr, engine_token])
  have hb := only (some .b) (.token .b n q) (by simp [hr, engine_token])
  have hn := only none r (by simp [hr, engine_token])
  cases l <;> simp only [tieOrder, otherEngine, ha, hb, hn] <;> rfl

/-- Settles O44: one request by the state of the cipher, requests together by the order of the tie. -/
theorem cipherServesInOrderOfArrival : Obligations.CipherServesInOrderOfArrival := by
  refine ⟨rfl, fun c r => ⟨fun hb => ?_, request_of_busy r, complete_of_alone, fun rest => complete_of_waiting, ?_, ?_, ?_⟩⟩
  · rw [request_of_free r hb]
    exact ⟨rfl, rfl⟩
  · rintro e m p rfl hb
    rw [request_of_free _ hb]
    rfl
  · intro hr hb
    rw [request_of_free r hb, Cipher.grant, hr]
    rfl
  · intro m n p q hb hw
    refine ⟨fun hl => ?_, fun hl => ?_, fun e hr => ?_, fun rs hr hp => ⟨fun hl => ?_, fun hl => ?_⟩⟩
    · exact arrive_of_free hb hw (by rw [hl]; rfl)
    · exact arrive_of_free hb hw (by rw [hl]; rfl)
    · refine arrive_of_free hb hw ?_
      cases e <;> cases c.lastServed <;> simp [tieOrder, otherEngine, hr, engine_token]
    · exact arrive_of_free hb hw (by rw [hl, tieOrder_of_perm .b hr hp])
    · exact arrive_of_free hb hw (by rw [hl, tieOrder_of_perm .a hr hp])

/-- One request of the part reaches the arbiter alone. -/
theorem requestCipher_eq (s : State) (r : CipherRequest) :
    s.requestCipher r = { s with cipher := s.cipher.request r } := by
  rw [State.requestCipher, arrive_one]

/-! ### LOAD_KEY, DROP_KEY and READ_KEYS on receipt -/

/-- A DROP_KEY of one byte names a slot, or none (R70). -/
theorem decodeDropKey_byte (b : Byte) : decodeDropKey [b] = slotOf b.toNat := by
  have value : bytesToNat [b] = b.toNat := by simp [bytesToNat]
  simp only [decodeDropKey, readNumber, List.length_singleton, Nat.le_refl, if_true, Option.bind_eq_bind,
    Option.bind_some, List.take_succ_cons, List.take_zero, List.drop_succ_cons, List.drop_zero, value]
  cases slotOf b.toNat <;> rfl

theorem decodeDropKey_of_high {b : Byte} (h : 4 ≤ b.toNat) : decodeDropKey [b] = none := by
  rw [decodeDropKey_byte, slotOf, dif_neg (by omega)]

theorem decodeDropKey_of_slot {b : Byte} {slot : SlotId} (h : b.toNat = slot.val) : decodeDropKey [b] = some slot := by
  rw [decodeDropKey_byte, slotOf, dif_pos (by omega)]
  exact congrArg some (Fin.ext h)

/-- Settles O45: each request is taken on lane 0, and its slot's state decides. -/
theorem keyRequestsAnswer : Obligations.KeyRequestsAnswer := by
  intro tag body b s ht
  dsimp only
  refine ⟨?_, fun hb => ?_, fun slot hslot => ⟨fun he => ?_, fun g key hl => ?_⟩, ?_⟩
  · show Host.Outcome.next _ = _
    rw [takeSupervisor_of_takes s _ tag _ ht, State.loadKeyRequest]
    cases decodeLoadKey body with
    | none => rw [working_answer s .loadKey 0 tag .badField rfl]
    | some f => exact congrArg Host.Outcome.next (requestCipher_eq (s.working .loadKey 0 tag) (.loadKey f))
  · show Host.Outcome.next _ = _
    rw [takeSupervisor_of_takes s _ tag _ ht, State.dropKeyRequest, decodeDropKey_of_high hb,
      working_answer s .dropKey 0 tag .badField rfl]
  · show Host.Outcome.next _ = _
    rw [takeSupervisor_of_takes s _ tag _ ht]
    simp only [State.dropKeyRequest, decodeDropKey_of_slot hslot]
    rw [show (s.working .dropKey 0 tag).slots[slot].state = .empty from he]
    exact congrArg Host.Outcome.next (working_respond s .dropKey 0 tag .done _ rfl)
  · show Host.Outcome.next _ = _
    rw [takeSupervisor_of_takes s _ tag _ ht]
    simp only [State.dropKeyRequest, decodeDropKey_of_slot hslot]
    rw [show (s.working .dropKey 0 tag).slots[slot].state = .loaded g key from hl]
    simp only [working_answer s .dropKey 0 tag .keyInUse rfl]
    rfl
  · show Host.Outcome.next _ = _
    rw [takeSupervisor_of_takes s _ tag _ ht]
    exact congrArg Host.Outcome.next (working_respond s .readKeys 0 tag .done _ rfl)

/-! ### The keys' completions -/

/-- Check 3 of R68 fails: another slot holds the generation. -/
theorem generationElsewhere_iff (slots : Vector KeySlot 4) (slot : SlotId) (g : Nat) :
    generationElsewhere slots slot g = true ↔ ∃ i : SlotId, i ≠ slot ∧ slots[i].generation = some g := by
  simp [generationElsewhere]

/-- Settles O46: the checks of a load in their order, then the two writes of the key row. -/
theorem keyChangesComplete : Obligations.KeyChangesComplete := by
  intro lane h overlap s he
  refine ⟨?_, fun slot k hc => ?_, fun slot g hc => ?_⟩
  · rintro f t hb rfl
    have answered : ∀ code, replyCharge code = 0 →
        s.completeCipher.answer code = s.completeCipher.completed lane h overlap code .empty :=
      fun code => respond_of_working s.completeCipher lane h overlap code .empty he
    show execLoadKeyVerified s = _
    simp only [execLoadKeyVerified, hb, State.loadKeyVerified, generationElsewhere_iff, answered .badAuth rfl,
      answered .duplicateKey rfl, answered .keyInUse rfl]
    rfl
  · show execKeyWriteDone s = _
    simp only [execKeyWriteDone, hc, State.keyWritten]
    exact congrArg Host.Outcome.next (finishOp_respond _ lane h overlap _ _ (by exact he) rfl)
  · show execDropKeyWriteDone s = _
    simp only [execDropKeyWriteDone, hc, State.keyDropped]
    exact congrArg Host.Outcome.next (finishOp_respond _ lane h overlap _ _ (by exact he) rfl)

end Sys2Proof.Machine
end

section
/-! Proofs: an engine's item from its read to its close (R60, R66, R67, R112 to R123, R131, R133). -/
namespace Sys2Proof.Machine

open Sys2Proof

/-! ### An engine's next request -/

theorem pair_set_set {α : Type} (p : Pair α) (e : EngineId) (x y : α) : (p.set e x).set e y = p.set e y := by
  cases e <;> rfl

/-- An engine with its item's row and record in hand goes on with its group (R118, R119). -/
theorem continueTokens_eq {s : State} {e : EngineId} {b : BusyEngine} {i : Item} {r : MeterRecord} {n : Nat}
    (hi : b.items[b.item]? = some i) (hr : b.work.record = some r) (hn : b.work.row = some n) :
    s.continueTokens e b = s.wentOn e b i r n := by
  unfold State.continueTokens State.wentOn
  simp only [hi, hr, hn]
  cases b.work.planned with
  | nil => rfl
  | cons p rest => exact requestCipher_eq (s.setEngine e (.busy { b with stage := .tokens })) (.token e i.meter p)

/-- A claim at once granted: no holder names the meter, and no claim waits for it (R110; log entry 11). -/
theorem claimGranted_iff (t : LockTable) (m : MeterNumber) :
    (t.free m && !t.awaited m) = true ↔ t.engines.a ≠ some m ∧ t.engines.b ≠ some m ∧ t.scrubber ≠ some m
      ∧ ∀ c ∈ t.waiting, c.2 ≠ m := by
  have waits : (!t.awaited m) = true ↔ ∀ c ∈ t.waiting, c.2 ≠ m := by simp [LockTable.awaited]
  rw [Bool.and_eq_true, LockTable.free_iff, waits, and_assoc, and_assoc]

/-- An engine begins an item with its working values cleared, and claims the meter (R110, R113). -/
theorem claim_eq_claimed (s : State) (e : EngineId) (b : BusyEngine) (m : MeterNumber) :
    (s.setEngine e (.busy { b with stage := .claim, work := {} })).claim e m = s.claimed e b m := by
  unfold State.claim State.claimed
  refine if_congr (claimGranted_iff s.locks m) ?_ rfl
  rw [grantClaim_of_busy _ e m _ (setEngine_busyEngine s e _), setEngine_engines, pair_set_set]
  rfl

/-! ### The end of an item -/

theorem placeResult_eq (l : Lane) (e : EngineId) (tag : Tag) (outcomes : List ItemOutcome) :
    l.placeResult e ⟨tag, outcomes⟩ = if l.foreground = none then
        { l with inFlight := l.inFlight.filter fun p => p ≠ (tag, e), foreground := some ⟨tag, outcomes⟩ }
      else { l with inFlight := l.inFlight.filter fun p => p ≠ (tag, e), background := some ⟨tag, outcomes⟩ } := by
  have rest : l.inFlight.filter (· != (tag, e)) = l.inFlight.filter fun p => p ≠ (tag, e) :=
    List.filter_congr fun p _ => by rw [bne, beq_eq_decide, decide_not]
  unfold Lane.placeResult
  rw [rest]
  exact if_congr (by simp) rfl rfl

/-- The end of a request (R98, R104, R122). -/
theorem endRequest_eq (s : State) (e : EngineId) (b : BusyEngine) :
    s.endRequest e b = s.ended e b.lane b.tag b.outcomes := by
  show { s with
    lanes := s.lanes.set b.lane ((s.lane b.lane).placeResult e ⟨b.tag, b.outcomes⟩)
    engines := s.engines.set e (restingEngine e s.supply) } = _
  rw [placeResult_eq]
  rfl

/-- A DONE item in HOLDING: the later items are skipped (R123). -/
theorem endItem_of_holding {s : State} (e : EngineId) (b : BusyEngine) (d : DoneOutcome) (h : s.supply = .holding) :
    s.endItem e b (.done d) = s.ended e b.lane b.tag
      (b.outcomes ++ [.done d] ++ List.replicate (b.items.length - b.item - 1) (.skipped .supply)) := by
  simp only [State.endItem, h, if_true, endRequest_eq, BusyEngine.skipRest, Nat.sub_sub]

/-- The last item DONE (R122). -/
theorem endItem_of_last {s : State} {e : EngineId} {b : BusyEngine} (d : DoneOutcome) (h : s.supply ≠ .holding)
    (hi : b.items[b.item + 1]? = none) : s.endItem e b (.done d) = s.ended e b.lane b.tag (b.outcomes ++ [.done d]) := by
  simp only [State.endItem, if_neg h, State.startItem, hi, endRequest_eq]

/-- An item DONE with another behind it (R123). -/
theorem endItem_of_next {s : State} {e : EngineId} {b : BusyEngine} {j : Item} (d : DoneOutcome) (h : s.supply ≠ .holding)
    (hj : b.items[b.item + 1]? = some j) :
    s.endItem e b (.done d) = s.claimed e { b with item := b.item + 1, outcomes := b.outcomes ++ [.done d] } j.meter := by
  simp only [State.endItem, if_neg h, State.startItem, hj]
  exact claim_eq_claimed s e { b with item := b.item + 1, outcomes := b.outcomes ++ [.done d] } j.meter

/-! ### A token computed -/

theorem computeToken_of_keys {slots : Vector KeySlot 4} {m : MeterNumber} {p : PlannedToken} {key : Config.OfficeKey}
    {amount : Nat} (hk : officeKeyOf slots p.generation = some key) (ha : tokenAmount slots m p = some amount) :
    computeToken slots m p = some ⟨p.kind, p.sequence, p.generation, amount, Config.permutation (Config.meterKey key m)
      (clearContent (Config.meterKey key m) (tokenKindNumber p.kind) p.sequence amount)⟩ := by
  simp only [computeToken, hk, ha]

/-- The engine holds the token and goes on (R64, R118). -/
theorem receiveToken_eq {s : State} {e : EngineId} {b : BusyEngine} {i : Item} {r : MeterRecord} {n : Nat} {p : PlannedToken}
    {rest : List PlannedToken} (t : Token) (hb : s.busyEngine e = some b) (hi : b.items[b.item]? = some i)
    (hp : b.work.planned = p :: rest) (hr : b.work.record = some r) (hn : b.work.row = some n) :
    s.receiveToken e t
      = s.wentOn e { b with work := { b.work with planned := rest, tokens := b.work.tokens ++ [t] } } i r n := by
  simp only [State.receiveToken, hb, hp, List.drop_succ_cons, List.drop_zero]
  exact continueTokens_eq hi hr hn

/-- Settles O43: the token is computed under the slots' keys, with the amount that its kind calls for. -/
theorem tokenComputationsComplete : Obligations.TokenComputationsComplete := by
  intro e m p rest b i r n amount key s hc hb hi hp hr hn hk ha
  have hamount : tokenAmount s.slots m p = some amount := by
    rcases ha with ⟨hnone, rfl⟩ | ⟨h, k, hsome, hkey, rfl⟩
    · simp only [tokenAmount, hnone]
    · simp only [tokenAmount, hsome, hkey]
  show execTokenComputed s = _
  simp only [execTokenComputed, hc, State.tokenComputed, computeToken_of_keys hk hamount]
  exact congrArg Host.Outcome.next (receiveToken_eq (s := s.completeCipher) _ hb hi hp hr hn)

/-! ### The close of an item -/

theorem reportDone_purchase (l : Lane) (m : MeterNumber) (tender size : Nat) :
    l.reportDone (.purchase m tender) size = { l with
      count := l.count - (if 0 < tender then 1 else 0)
      tally := { l.tally with
        money := l.tally.money + tender
        purchases := min 4294967295 (l.tally.purchases + 1)
        tokens := min 4294967295 (l.tally.tokens + size) } } := by
  unfold Lane.reportDone
  dsimp only
  split <;> rfl

theorem lowerSlots_releaseLock (s : State) (e : EngineId) (named : List SlotId) :
    (s.releaseLock e).lowerSlots named = (s.lowerSlots named).releaseLock e := by
  induction named generalizing s with
  | nil => rfl
  | cons i rest ih => exact ih (s.setSlot i { s.slots[i] with inUse := s.slots[i].inUse - 1 })

theorem exec_commitCleared {s : State} {e : EngineId} (hc : s.current = some (.commitClear e)) :
    exec .commitCleared s = .next (s.commitCleared e) := by
  show execCommitCleared s = _
  simp only [execCommitCleared, hc]

/-- An engine's release of its meter with a report to a lane, on a state whose locks and lanes are those of another. -/
theorem releaseLock_updateLane {s u : State} (hk : u.locks = s.locks) (hl : u.lanes = s.lanes) (e : EngineId) (l : LaneId)
    (f : Lane → Lane) : (u.releaseLock e).updateLane l f = { u with
      locks := { s.locks with engines := s.locks.engines.set e none }
      lanes := s.lanes.set l (f (s.lane l)) } := by
  rw [← lane_of_lanes hl l, ← hk, ← hl]
  rfl

/-- The part of a DONE item's close before its engine goes on: the lock, the counts and the lane's report (R100, R120). -/
theorem commitCleared_closes {s : State} {e : EngineId} {b : BusyEngine} {i : Item} (hb : s.busyEngine e = some b)
    (hi : b.items[b.item]? = some i) :
    s.commitCleared e = State.endItem
      { { s with memory := s.memory.writeCommit e none }.finishOp.lowerSlots b.work.slots with
        locks := { s.locks with engines := s.locks.engines.set e none }
        lanes := s.lanes.set b.lane ((s.lane b.lane).reportDone i b.work.tokens.length) }
      e b (.done (b.work.outcome i.tender)) := by
  rw [commitCleared_eq ((busyEngine_of_engines (finishOp_engines (s.commitRowSet e none)) e).trans hb) hi, State.closeItem,
    lowerSlots_releaseLock]
  have locks : ((s.commitRowSet e none).finishOp.lowerSlots b.work.slots).locks = s.locks := by
    rw [lowerSlots_locks, finishOp_locks]; rfl
  have lanes : ((s.commitRowSet e none).finishOp.lowerSlots b.work.slots).lanes = s.lanes := by
    rw [lowerSlots_lanes, finishOp_lanes]; rfl
  rw [releaseLock_updateLane locks lanes]
  rfl

theorem count_of_nodup {named : List SlotId} (h : named.Nodup) (i : SlotId) :
    named.count i = if i ∈ named then 1 else 0 := by
  split
  · rename_i hm; exact List.count_eq_one_of_mem h hm
  · rename_i hm; exact List.count_eq_zero_of_not_mem hm

/-- Settles O51: the close up to the lane's report, then the supply and the next item decide. -/
theorem committedItemCloses : Obligations.CommittedItemCloses := by
  refine ⟨fun e b i s t x hc hb hi hpurchase hservice ht => ?_, fun named s hn => ⟨lowerSlots_frame s named, fun i => ?_⟩⟩
  · have hx : x = (s.lane b.lane).reportDone i b.work.tokens.length := by
      cases i with
      | purchase m tender => rw [hpurchase m tender rfl, reportDone_purchase]
      | service m kind amount => exact hservice m kind amount rfl
    have closed : exec .commitCleared s = .next (t.endItem e b (.done (b.work.outcome i.tender))) := by
      rw [exec_commitCleared hc, commitCleared_closes hb hi, ← hx, ← ht]
    have supply : t.supply = s.supply := by
      rw [ht]
      exact (lowerSlots_supply _ _).trans (finishOp_supply _)
    dsimp only
    refine ⟨fun hs => ?_, fun hs => ⟨fun hj => ?_, fun j hj => ?_⟩, fun v hv => ?_⟩
    · rw [closed, endItem_of_holding e b _ (supply.trans hs)]
    · rw [closed, endItem_of_last _ (supply ▸ hs) hj]
    · rw [closed, endItem_of_next _ (supply ▸ hs) hj]
    · simp only [WorkingValues.outcome, hv]
  · rw [lowerSlots_slots, count_of_nodup hn]
    split <;> rfl

end Sys2Proof.Machine
end

section
/-! Proofs: the read of an item's record and the checks of stages 2 to 4 (R60, R66, R67, R114 to R117, R131, R133). -/
namespace Sys2Proof.Machine

open Sys2Proof

/-! ### The slots an item needs -/

theorem findSlot_eq_none_iff (slots : Vector KeySlot 4) (g : Nat) :
    findSlot slots g = none ↔ ∀ i : SlotId, slots[i].generation ≠ some g := by
  simp [findSlot, List.find?_eq_none]

/-- The key check fails when a generation that the record names is in no slot (R67). -/
theorem neededSlots_eq_none_iff (slots : Vector KeySlot 4) (r : MeterRecord) :
    neededSlots slots r = none ↔
      ∃ g ∈ r.keyGeneration :: r.pendingGeneration.toList, ∀ i : SlotId, slots[i].generation ≠ some g := by
  simp only [← findSlot_eq_none_iff, List.exists_mem_cons_iff, Option.mem_toList, neededSlots]
  cases findSlot slots r.keyGeneration with
  | none => simp
  | some i =>
    cases r.pendingGeneration with
    | none => simp
    | some h => cases hj : findSlot slots h <;> simp [hj]

/-- A key check that passes names the slot of each generation that the record names, and no other slot (R66, R67). -/
theorem neededSlots_names {slots : Vector KeySlot 4} {r : MeterRecord} {named : List SlotId}
    (h : neededSlots slots r = some named) :
    (∀ g ∈ r.keyGeneration :: r.pendingGeneration.toList, ∃ i ∈ named, slots[i].generation = some g)
      ∧ ∀ i ∈ named, ∃ g ∈ r.keyGeneration :: r.pendingGeneration.toList, slots[i].generation = some g := by
  unfold neededSlots at h
  split at h
  · rename_i i hkey hp
    obtain rfl := Option.some.inj h
    have old := findSlot_gen hkey
    simp_all
  · rename_i i g hkey hp
    split at h
    · rename_i j hpending
      obtain rfl := Option.some.inj h
      have old := findSlot_gen hkey
      have new := findSlot_gen hpending
      by_cases hij : i = j
      · subst hij
        simp_all
      · simp_all
    · cases h
  · cases h

/-! ### The decisions of stages 3 and 4 -/

/-- A group has no room above a sequence (R60). -/
theorem sequenceRoom_fails_iff {α : Type} (sequence : Nat) (group : List α) :
    (!sequenceRoom sequence group.length) = true ↔ group ≠ [] ∧ 99999999 < sequence + group.length := by
  have fits : sequenceRoom sequence group.length = true ↔ group = [] ∨ sequence + group.length ≤ maxSequence := by
    simp [sequenceRoom]
  rw [Bool.not_eq_true', ← Bool.not_eq_true, fits, not_or, Nat.not_le]
  rfl

/-- The decisions on a purchase whose class is defined, whose keys are there and whose calculation completes (R115, R117). -/
theorem preparePurchase_of_values {s : State} {r : MeterRecord} {tender : Nat} {c : TariffClass} {named : List SlotId}
    {v : Calculation} (w : WorkingValues) (hc : s.tariff.snapshot r.tariffClass = some c)
    (hk : neededSlots s.slots r = some named) (hv : calculate c r tender = .ok v) :
    s.preparePurchase w r tender =
      if purchaseGroup r v ≠ [] ∧ 99999999 < r.sequence + (purchaseGroup r v).length then .error .sequenceExhausted
      else if s.authority.available < tender then .error .noAuthority
      else .ok { w with
        record := some r, snapshot := some c, calculation := some v
        planned := numberGroup r r.sequence (purchaseGroup r v), reserved := tender, slots := named } := by
  simp only [State.preparePurchase, hc, hk, hv, sequenceRoom_fails_iff]

/-- The decisions on a service item whose keys are there (R116). -/
theorem prepareService_of_slots {s : State} {r : MeterRecord} {named : List SlotId} (w : WorkingValues) (kind : TokenKind)
    (amount : Nat) (hk : neededSlots s.slots r = some named) :
    s.prepareService w r kind amount =
      if 99999999 < r.sequence + (serviceGroup r kind amount).length then .error .sequenceExhausted
      else .ok { w with
        record := some r, planned := numberGroup r r.sequence (serviceGroup r kind amount), slots := named } := by
  have some_token : serviceGroup r kind amount ≠ [] := by simp [serviceGroup]
  simp only [State.prepareService, hk, sequenceRoom_fails_iff, some_token, ne_eq, not_false_eq_true, true_and]

/-- What the decisions read of the state: the banks, the slots and the unit's amounts. -/
theorem prepare_congr {s t : State} (ht : t.tariff = s.tariff) (hs : t.slots = s.slots) (ha : t.authority = s.authority)
    (w : WorkingValues) (r : MeterRecord) (i : Item) : t.prepare w r i = s.prepare w r i := by
  cases i <;> simp only [State.prepare, State.preparePurchase, State.prepareService, ht, hs, ha]

/-- The reservation with its low-mark rule (R131, R133). -/
theorem reserve_eq {s : State} {a : Authority} {flags : EventFlags} {st : OfficeSettings} (amount : Nat)
    (ha : s.authority = a) (hf : s.events = flags) (hs : s.settings = st) :
    s.reserve amount = { s with
      authority := { a with reserved := a.reserved + amount }
      events := { flags with authorityLow := flags.authorityLow
        || (st.lowMark ≤ a.available && a.available - amount < st.lowMark) } } := by
  subst ha hf hs
  have after : ({ s.authority with reserved := s.authority.reserved + amount } : Authority).available
      = s.authority.available - amount := (Nat.sub_sub _ _ _).symm
  unfold State.reserve State.noteAuthority
  simp only [after, Nat.not_lt]
  split
  · rename_i falls
    simp only [falls.1, falls.2, decide_true, Bool.and_self, Bool.or_true]
    rfl
  · rename_i stays
    have none : (decide (s.settings.lowMark ≤ s.authority.available)
        && decide (s.authority.available - amount < s.settings.lowMark)) = false := by simpa using stays
    rw [none, Bool.or_false]

/-- An item that passes raises its slots' counts, reserves its tender and goes on with its group (R115 to R118). -/
theorem passItem_eq {s : State} {a : Authority} {flags : EventFlags} {st : OfficeSettings} {b : BusyEngine}
    {w : WorkingValues} {i : Item} {r : MeterRecord} {n : Nat} (e : EngineId) (ha : s.authority = a) (hf : s.events = flags)
    (hs : s.settings = st) (hi : b.items[b.item]? = some i) (hr : w.record = some r) (hn : w.row = some n) :
    s.passItem e b w = State.wentOn { s.raiseSlots w.slots with
      authority := { a with reserved := a.reserved + w.reserved }
      events := { flags with authorityLow := flags.authorityLow
        || (st.lowMark ≤ a.available && a.available - w.reserved < st.lowMark) } }
      e { b with stage := .tokens, work := w } i r n := by
  rw [State.passItem, continueTokens_eq (b := { b with stage := .tokens, work := w }) hi hr hn,
    reserve_eq w.reserved ((raiseSlots_authority s _).trans ha) ((raiseSlots_events s _).trans hf)
      ((raiseSlots_settings s _).trans hs)]

/-! ### The read of an item's record -/

theorem exec_itemReadDone {s : State} {e : EngineId} {m : MeterNumber} (d : Decay) (hc : s.current = some (.itemRead e m)) :
    exec (.itemReadDone d) s = .next (s.itemRead e m d) := by
  show execItemReadDone d s = _
  simp only [execItemReadDone, hc]

section
variable {s t : State} {e : EngineId} {m : MeterNumber} {d : Decay} {b : BusyEngine} {i : Item} {n : Nat}
  {read : MeterRecord}

theorem itemRead_of_noMeter (hb : s.busyEngine e = some b) (hi : b.items[b.item]? = some i)
    (hr : s.readMeter m d = (t, .error .noMeter)) : s.itemRead e m d = t.finishOp.refuseItem e b .noMeter := by
  simp only [State.itemRead, hb, hi, hr]

theorem itemRead_of_damaged (hb : s.busyEngine e = some b) (hi : b.items[b.item]? = some i)
    (hr : s.readMeter m d = (t, .error .damaged)) : s.itemRead e m d = t.finishOp.refuseItem e b .damaged := by
  simp only [State.itemRead, hb, hi, hr]

theorem itemRead_of_record (hb : s.busyEngine e = some b) (hi : b.items[b.item]? = some i)
    (hr : s.readMeter m d = (t, .ok (n, read))) : s.itemRead e m d = t.finishOp.checkItem e b i n read := by
  simp only [State.itemRead, hb, hi, hr]

end

/-- An engine's read that finds its item's record: what has to stand for the checks of stages 2 to 4 to be reached (R114). -/
structure State.FindsRecord (s : State) (d : Decay) (e : EngineId) (m : MeterNumber) (b : BusyEngine) (i : Item) (n : Nat)
    (read : MeterRecord) : Prop where
  current : s.current = some (.itemRead e m)
  busy : s.busyEngine e = some b
  item : b.items[b.item]? = some i
  row : s.store.rowOf m = some n
  undamaged : n ∉ s.store.damaged
  found : s.reading n d = .record read

section
variable {s : State} {d : Decay} {e : EngineId} {m : MeterNumber} {b : BusyEngine} {i : Item} {n : Nat} {read : MeterRecord}

theorem itemReadDone_checks (h : s.FindsRecord d e m b i n read) :
    exec (.itemReadDone d) s = .next ((s.readRecordRow n d).finishOp.checkItem e b i n read) := by
  have answer : s.readMeter m d = (s.readRecordRow n d, .ok (n, read)) := by
    rw [readMeter_of_read d h.row h.undamaged, h.found]
    rfl
  rw [exec_itemReadDone d h.current, itemRead_of_record h.busy h.item answer]

theorem finishedRead_authority (s : State) (n : Nat) (d : Decay) :
    (s.readRecordRow n d).finishOp.authority = s.authority :=
  (finishOp_authority _).trans (readRecordRow_authority s n d)

theorem finishedRead_prepare (s : State) (n : Nat) (d : Decay) (w : WorkingValues) (r : MeterRecord) (i : Item) :
    (s.readRecordRow n d).finishOp.prepare w r i = s.prepare w r i :=
  prepare_congr ((finishOp_tariff _).trans (readRecordRow_tariff s n d)) ((finishOp_slots _).trans (readRecordRow_slots s n d))
    (finishedRead_authority s n d) w r i

/-- A decision of stages 3 and 4 refuses the item. -/
theorem itemReadDone_refuses {code : RefusalCode} (h : s.FindsRecord d e m b i n read) (ha : read.status = .active)
    (ho : s.authority.overdue = false)
    (hp : s.prepare { b.work with row := some n } (read.rollover b.work.month) i = .error code) :
    exec (.itemReadDone d) s = .next ((s.readRecordRow n d).finishOp.refuseItem e b code) := by
  rw [itemReadDone_checks h]
  simp only [State.checkItem, ha, finishedRead_authority, ho, finishedRead_prepare, hp, ne_eq, not_true, if_false,
    Bool.false_eq_true]

/-- The decisions of stages 3 and 4 pass the item, which goes on with its group. -/
theorem itemReadDone_passes {w : WorkingValues} (h : s.FindsRecord d e m b i n read) (ha : read.status = .active)
    (ho : s.authority.overdue = false)
    (hp : s.prepare { b.work with row := some n } (read.rollover b.work.month) i = .ok w)
    (hr : w.record = some (read.rollover b.work.month)) (hw : w.row = some n) :
    exec (.itemReadDone d) s = .next (State.wentOn { (s.readRecordRow n d).finishOp.raiseSlots w.slots with
      authority := { s.authority with reserved := s.authority.reserved + w.reserved }
      events := { (s.readRecordRow n d).events with authorityLow := (s.readRecordRow n d).events.authorityLow
        || (s.settings.lowMark ≤ s.authority.available && s.authority.available - w.reserved < s.settings.lowMark) } }
      e { b with stage := .tokens, work := w } i (read.rollover b.work.month) n) := by
  have settings : (s.readRecordRow n d).finishOp.settings = s.settings :=
    (finishOp_settings _).trans (readRecordRow_settings s n d)
  rw [itemReadDone_checks h,
    ← passItem_eq e (finishedRead_authority s n d) (finishOp_events _) settings h.item hr hw]
  simp only [State.checkItem, ha, finishedRead_authority, ho, finishedRead_prepare, hp, ne_eq, not_true, if_false,
    Bool.false_eq_true]

end

/-- Settles O48: the read, then the checks of the record in their order, down to the decisions of each kind of item. -/
theorem itemsPassOrAreRefused : Obligations.ItemsPassOrAreRefused := by
  refine ⟨fun e m d b i s hc hb hi => ⟨fun h => ?_, fun n hn => ⟨fun hd => ?_, fun hd => ⟨fun h => ?_, fun h => ?_, ?_⟩⟩⟩,
    fun slots r named s => ⟨neededSlots_eq_none_iff slots r, fun h => ⟨neededSlots_nodup h, neededSlots_names h⟩,
      fun hn => ⟨raiseSlots_frame s named, fun i => ?_⟩⟩⟩
  · rw [exec_itemReadDone d hc, itemRead_of_noMeter hb hi (readMeter_of_unindexed d h)]
  · rw [exec_itemReadDone d hc, itemRead_of_damaged hb hi (readMeter_of_damaged d hn hd)]
  · rw [exec_itemReadDone d hc, itemRead_of_noMeter hb hi ((readMeter_of_read d hn hd).trans (by rw [h]; rfl))]
  · rw [exec_itemReadDone d hc, itemRead_of_damaged hb hi ((readMeter_of_read d hn hd).trans (by rw [h]; rfl))]
  · rintro read r named h rfl rfl
    have finds : s.FindsRecord d e m b i n read := ⟨hc, hb, hi, hn, hd, h⟩
    refine ⟨fun ha => ?_, fun ha ho => ?_, fun ha ho => ⟨?_, ?_⟩⟩
    · rw [itemReadDone_checks finds, State.checkItem, if_pos ha]
    · rw [itemReadDone_checks finds]
      simp only [State.checkItem, ha, finishedRead_authority, ho, ne_eq, not_true, if_false, if_true]
    · rintro mm tender rfl
      cases hcls : s.tariff.snapshot (read.rollover b.work.month).tariffClass with
      | none => exact itemReadDone_refuses finds ha ho (by simp only [State.prepare, State.preparePurchase, hcls])
      | some c =>
        cases hk : neededSlots s.slots (read.rollover b.work.month) with
        | none => exact itemReadDone_refuses finds ha ho (by simp only [State.prepare, State.preparePurchase, hcls, hk])
        | some named =>
          dsimp only
          cases hv : calculate c (read.rollover b.work.month) tender with
          | error code =>
            exact itemReadDone_refuses finds ha ho (by simp only [State.prepare, State.preparePurchase, hcls, hk, hv])
          | ok v =>
            have decided := preparePurchase_of_values { b.work with row := some n } hcls hk hv
            dsimp only
            split
            · exact itemReadDone_refuses finds ha ho (decided.trans (if_pos ‹_›))
            · rw [if_neg ‹_›] at decided
              split
              · exact itemReadDone_refuses finds ha ho (decided.trans (if_pos ‹_›))
              · exact itemReadDone_passes finds ha ho (decided.trans (if_neg ‹_›)) rfl rfl
    · rintro mm kind amount rfl
      cases hk : neededSlots s.slots (read.rollover b.work.month) with
      | none => exact itemReadDone_refuses finds ha ho (by simp only [State.prepare, State.prepareService, hk])
      | some named =>
        have decided := prepareService_of_slots { b.work with row := some n } kind amount hk
        dsimp only
        split
        · exact itemReadDone_refuses finds ha ho (decided.trans (if_pos ‹_›))
        · exact itemReadDone_passes finds ha ho (decided.trans (if_neg ‹_›)) rfl rfl
  · rw [raiseSlots_slots, count_of_nodup hn]
    split <;> rfl

end Sys2Proof.Machine
end

section
/-! Proofs: what a reset leaves, and what the write in progress leaves in record memory (R124, R147, R165). -/
namespace Sys2Proof.Machine

open Sys2Proof

/-! ### What a completion leaves in record memory -/

theorem checkItem_memory (s : State) (e : EngineId) (b : BusyEngine) (i : Item) (n : Nat) (r : MeterRecord) :
    (s.checkItem e b i n r).memory = s.memory := by
  unfold State.checkItem
  split
  · exact refuseItem_memory ..
  · split
    · exact refuseItem_memory ..
    · split
      · exact refuseItem_memory ..
      · rw [State.passItem, continueTokens_memory, reserve_memory, raiseSlots_memory]

/-- An engine's read writes what the read itself writes. -/
theorem itemRead_memory {s : State} {e : EngineId} {b : BusyEngine} {i : Item} (m : MeterNumber) (d : Decay)
    (hb : s.busyEngine e = some b) (hi : b.items[b.item]? = some i) :
    (s.itemRead e m d).memory = (s.readMeter m d).1.memory := by
  simp only [State.itemRead, hb, hi]
  split <;> rename_i t _ hr <;> rw [hr]
  · rw [refuseItem_memory, finishOp_memory]
  · rw [refuseItem_memory, finishOp_memory]
  · rw [checkItem_memory, finishOp_memory]

theorem counterReply_memory (s : State) (lane : LaneId) (n : Nat) (r : MeterRecord) (q : CounterQuery) :
    (s.counterReply lane n r q).memory = s.memory := by
  cases q with
  | lookup m => exact respond_memory ..
  | reprint m =>
    unfold State.counterReply
    dsimp only
    split
    · exact respond_memory ..
    · exact answer_memory ..
  | quote m tender =>
    unfold State.counterReply
    dsimp only
    split
    · exact answer_memory ..
    · exact respond_memory ..

theorem counterRead_memory (s : State) (lane : LaneId) (q : CounterQuery) (d : Decay) :
    (s.counterRead lane q d).memory = (s.readMeter q.meter d).1.memory := by
  unfold State.counterRead
  split <;> rename_i t _ hr <;> rw [hr]
  · rw [answer_memory, finishOp_memory]
  · rw [counterReply_memory, finishOp_memory]

theorem readOrFault_memory (s : State) (id : RowId) (d : Decay) (b : Bool) :
    (s.readOrFault id d b).memory = (s.readPlainRow id d).memory := by
  unfold State.readOrFault
  split <;> rfl

theorem officeRowRead_memory (s : State) (id : RowId) (d : Decay) :
    (s.officeRowRead id d).memory = (s.readPlainRow id d).memory := by
  have read : (s.readOrFault id d false).finishOp.memory = (s.readPlainRow id d).memory :=
    (finishOp_memory _).trans (readOrFault_memory s id d false)
  unfold State.officeRowRead
  dsimp only
  split
  · exact read
  · split
    · exact (place_memory _ _).trans read
    · exact (place_memory _ _).trans read

theorem commitRowRead_memory (s : State) (e : EngineId) (d : Decay) :
    (s.commitRowRead e d).memory = (s.readPlainRow (.commit e) d).memory := by
  have read : (s.readOrFault (.commit e) d false).finishOp.memory = (s.readPlainRow (.commit e) d).memory :=
    (finishOp_memory _).trans (readOrFault_memory s _ d false)
  unfold State.commitRowRead
  dsimp only
  split
  · exact read
  · split
    · exact (place_memory _ _).trans read
    · exact (place_memory _ _).trans read

theorem indexScanned_memory (s : State) (n : Nat) (m : MeterNumber) (lost : Bool) :
    (s.indexScanned n m lost).memory = s.memory := by
  unfold State.indexScanned
  dsimp only
  split
  · exact markDamaged_memory ..
  · rfl

theorem scanRecord_memory (s : State) (n : Nat) (r : MeterRecord) (w : MeterWords) :
    (s.scanRecord n r w).memory = s.memory := by
  unfold State.scanRecord
  dsimp only
  split
  · exact indexScanned_memory ..
  · generalize laterRowWins _ _ = wins
    cases wins with
    | false => exact makeOrphan_memory ..
    | true => exact (indexScanned_memory ..).trans (makeOrphan_memory ..)

theorem scanFindings_memory (s : State) (n : Nat) (d : Decay) : (s.scanFindings n d).memory = (s.readWords n d).memory := by
  unfold State.scanFindings
  dsimp only
  split
  · exact makeOrphan_memory ..
  · split
    · rfl
    · exact scanRecord_memory ..

theorem enterReady_memory (s : State) : s.enterReady.memory = s.memory :=
  enterReady_ind (P := fun t => t.memory = s.memory) rfl (fun _ h => h) (fun t h => (checkOverdue_memory t).trans h)
    (fun _ h => h)

theorem rowScanned_memory (s : State) (n : Nat) (d : Decay) : (s.rowScanned n d).memory = (s.readWords n d).memory := by
  have read : (s.scanFindings n d).finishOp.memory = (s.readWords n d).memory :=
    (finishOp_memory _).trans (scanFindings_memory s n d)
  unfold State.rowScanned
  dsimp only
  split
  · exact (place_memory _ _).trans read
  · exact (enterReady_memory _).trans read

/-! ### The reset -/

/-- A reset on a landed write: memory is the landed write's, and everything else is what every reset leaves (R165). -/
theorem exec_reset_landed {s : State} {d : Decay} {m : RecordMemory} (h : s.landedMemory d = m) :
    exec (.reset (some d)) s = .next (s.restart m) := by
  subst h; rfl

theorem inProgress_of_current {s : State} {op : RowOp} (hc : s.current = some op) :
    ∃ t, s.store.inProgress = some t ∧ t.op = op :=
  Option.map_eq_some_iff.mp hc

section
variable {s : State} {d : Decay}

theorem landedMemory_idle (h : s.store.inProgress = none) : s.landedMemory d = s.memory := by
  simp only [State.landedMemory, h]

/-- The first write of a commit leaves its row old in either case (R124). -/
theorem landedMemory_commitMarker {e : EngineId} {k : Marker} (hc : s.current = some (.commitMarker e k)) :
    s.landedMemory d = s.memory := by
  obtain ⟨t, ht, hop⟩ := inProgress_of_current hc
  simp only [State.landedMemory, ht, hop]

theorem landedMemory_meterWrite {e : EngineId} {k : Marker}
    (hc : s.current = some (.commitMeter e k) ∨ s.current = some (.rollMeter e k)) :
    s.landedMemory d = s.memory.writeRecord k.row k.image := by
  obtain hc | hc := hc <;> obtain ⟨t, ht, hop⟩ := inProgress_of_current hc <;> simp only [State.landedMemory, ht, hop]

theorem landedMemory_clear {e : EngineId} (hc : s.current = some (.commitClear e) ∨ s.current = some (.rollClear e)) :
    s.landedMemory d = s.memory.writeCommit e none := by
  obtain hc | hc := hc <;> obtain ⟨t, ht, hop⟩ := inProgress_of_current hc <;> simp only [State.landedMemory, ht, hop]

/-- The office row that lands is the one formed when the write was taken (R128). -/
theorem landedMemory_office {w : OfficeWrite} {r : OfficeRow} (h : s.store.inProgress = some ⟨.office w, some r, none⟩) :
    s.landedMemory d = s.memory.writeOffice r := by
  simp only [State.landedMemory, h, State.formedRow, Option.getD_some]

theorem landedMemory_setTariff {i : Fin 2} {b : Bank} (hc : s.current = some (.setTariff i b)) :
    s.landedMemory d = s.memory.writeTariff i (some b) := by
  obtain ⟨t, ht, hop⟩ := inProgress_of_current hc
  simp only [State.landedMemory, ht, hop]

theorem landedMemory_clearTariff {i : Fin 2} (hc : s.current = some (.clearTariff i)) :
    s.landedMemory d = s.memory.writeTariff i none := by
  obtain ⟨t, ht, hop⟩ := inProgress_of_current hc
  simp only [State.landedMemory, ht, hop]

theorem landedMemory_loadKey {i : SlotId} {k : KeyContent} (hc : s.current = some (.loadKey i k)) :
    s.landedMemory d = s.memory.writeKey i (some k) := by
  obtain ⟨t, ht, hop⟩ := inProgress_of_current hc
  simp only [State.landedMemory, ht, hop]

theorem landedMemory_dropKey {i : SlotId} {g : Nat} (hc : s.current = some (.dropKey i g)) :
    s.landedMemory d = s.memory.writeKey i none := by
  obtain ⟨t, ht, hop⟩ := inProgress_of_current hc
  simp only [State.landedMemory, ht, hop]

theorem landedMemory_setLane {n : LaneId} {given : LaneSettings} {names : Bool}
    (hc : s.current = some (.setLane n given names)) :
    s.landedMemory d = s.memory.writeLanes (s.laneSettingsAfter n given names) := by
  obtain ⟨t, ht, hop⟩ := inProgress_of_current hc
  simp only [State.landedMemory, ht, hop]

/-- An operation with a read in it, and the command with which its read ends. -/
def EndsRead (s : State) (d : Decay) (c : Instr) : Prop :=
  c = .recordWriteDone d ∧ (∃ op, s.current = some (.record op))
    ∨ c = .counterReadDone d ∧ (∃ l q, s.current = some (.counterRead l q))
    ∨ c = .itemReadDone d ∧ (∃ e m b i, s.current = some (.itemRead e m) ∧ s.busyEngine e = some b
      ∧ b.items[b.item]? = some i)
    ∨ c = .scrubberReadDone d ∧ (∃ id, s.current = some (.scrub id))
    ∨ c = .startupOfficeRowRead d ∧ (∃ id, s.current = some (.startOffice id))
    ∨ c = .commitRowRead d ∧ (∃ e, s.current = some (.startCommit e))
    ∨ c = .scanRowRead d ∧ (∃ n, s.current = some (.scan n))

/-- An operation with a read in it lands what its own completion leaves in memory: what the completion does after the read
and the write is about the rest of the state only. -/
theorem landedMemory_completion {c : Instr} (h : EndsRead s d c) :
    ∃ t, exec c s = .next t ∧ s.landedMemory d = t.memory := by
  obtain ⟨rfl, op, hc⟩ | ⟨rfl, l, q, hc⟩ | ⟨rfl, e, m, b, i, hc, hb, hi⟩ | ⟨rfl, id, hc⟩ | ⟨rfl, id, hc⟩ | ⟨rfl, e, hc⟩
    | ⟨rfl, n, hc⟩ := h <;> obtain ⟨t, ht, hop⟩ := inProgress_of_current hc
  · refine ⟨_, exec_recordWriteDone d hc, ?_⟩
    simp only [State.landedMemory, ht, hop, State.takenRow, Option.bind_some]
  · refine ⟨_, exec_counterReadDone d hc, ?_⟩
    simp only [State.landedMemory, ht, hop, counterRead_memory]
  · refine ⟨_, exec_itemReadDone d hc, ?_⟩
    simp only [State.landedMemory, ht, hop, itemRead_memory m d hb hi]
  · refine ⟨s.scrubbed id d, ?_, ?_⟩
    · show execScrubberReadDone d s = _
      simp only [execScrubberReadDone, hc]
    · simp only [State.landedMemory, ht, hop]
  · refine ⟨_, exec_startupOfficeRowRead d hc, ?_⟩
    simp only [State.landedMemory, ht, hop, officeRowRead_memory]
  · refine ⟨_, exec_commitRowRead d hc, ?_⟩
    simp only [State.landedMemory, ht, hop, commitRowRead_memory]
  · refine ⟨s.rowScanned n d, ?_, ?_⟩
    · show execScanRowRead d s = _
      simp only [execScanRowRead, hc]
    · simp only [State.landedMemory, ht, hop, rowScanned_memory]

end

/-- Settles O13: one lemma for what each operation in progress leaves when it lands. -/
theorem resetLeaves : Obligations.ResetLeaves := by
  intro s
  refine ⟨rfl, rfl, fun d => ⟨?none, ?marker, ?meter, ?clear, ?office, ?setTariff, ?clearTariff, ?loadKey, ?dropKey, ?setLane,
    ?completion⟩⟩
  case none => exact fun h => exec_reset_landed (landedMemory_idle h)
  case marker => exact fun _ _ hc => exec_reset_landed (landedMemory_commitMarker hc)
  case meter => exact fun _ _ hc => exec_reset_landed (landedMemory_meterWrite hc)
  case clear => exact fun _ hc => exec_reset_landed (landedMemory_clear hc)
  case office => exact fun _ _ h => exec_reset_landed (landedMemory_office h)
  case setTariff => exact fun _ _ hc => exec_reset_landed (landedMemory_setTariff hc)
  case clearTariff => exact fun _ hc => exec_reset_landed (landedMemory_clearTariff hc)
  case loadKey => exact fun _ _ hc => exec_reset_landed (landedMemory_loadKey hc)
  case dropKey => exact fun _ _ hc => exec_reset_landed (landedMemory_dropKey hc)
  case setLane => exact fun _ _ _ hc => exec_reset_landed (landedMemory_setLane hc)
  case completion =>
    intro c h
    obtain ⟨t, ht, hm⟩ := landedMemory_completion h
    exact ⟨t, ht, exec_reset_landed hm⟩

end Sys2Proof.Machine
end

section
/-! Proofs: the dispatcher's choice and a dispatch (R97, R105 to R108, R110). -/
namespace Sys2Proof.Machine

open Sys2Proof

/-! ### Eligibility -/

/-- Conditions 6 and 7 of R105 supply state by supply state. -/
theorem admits_iff (st : LaneSettings) (p : Supply) (e : EngineId) :
    st.admits p e = true ↔ (p = .mains → (if e = .a then st.maskA else st.maskB) = true)
      ∧ (p = .battery → e = .a ∧ st.batteryService = true) ∧ p ≠ .holding := by
  cases p <;> simp [LaneSettings.admits, and_comm]

theorem waitingResults_eq (l : Lane) :
    l.waitingResults = l.foreground.toList.length + l.background.toList.length := by
  unfold Lane.waitingResults
  cases l.foreground <;> cases l.background <;> rfl

/-- The seven conditions of R105. -/
theorem eligible_iff (s : State) (e : EngineId) (l : LaneId) :
    s.eligible e l = true ↔ s.office = .ready ∧ s.engines.get e = .idle
      ∧ (s.lane l).state = .opened ∧ (s.lane l).queue ≠ []
      ∧ (s.lane l).inFlight.length + ((s.lane l).foreground.toList.length + (s.lane l).background.toList.length) < 2
      ∧ (s.supply = .mains → (if e = .a then (s.settingsOf l).maskA else (s.settingsOf l).maskB) = true)
      ∧ (s.supply = .battery → e = .a ∧ (s.settingsOf l).batteryService = true) ∧ s.supply ≠ .holding := by
  rw [← admits_iff, ← waitingResults_eq]
  simp [State.eligible, and_assoc]

/-! ### The choice -/

/-- The lane that a rotation finds comes no later in it than any lane that would do (R106). -/
theorem find?_rotation {last l k : LaneId} {good : LaneId → Bool} (h : (rotation last).find? good = some l)
    (hk : good k = true) : (l - (last + 1)).val ≤ (k - (last + 1)).val := by
  rw [rotation, List.find?_map, Option.map_eq_some_iff] at h
  obtain ⟨d, hd, rfl⟩ := h
  obtain ⟨-, before, after, whole, bad⟩ := List.find?_eq_some_iff_append.1 hd
  have rising : (before ++ d :: after).Pairwise (· < ·) := whole ▸ List.pairwise_lt_finRange 8
  have place : k - (last + 1) ∈ before ++ d :: after := whole ▸ List.mem_finRange _
  rw [add_sub_cancel_left]
  rcases List.mem_append.1 place with hb | ha
  · have := bad _ hb
    simp [hk] at this
  · rcases List.mem_cons.1 ha with heq | ha
    · exact heq ▸ le_rfl
    · exact (List.rel_of_pairwise_cons (List.pairwise_append.1 rising).2.1 ha).le

theorem mem_rotation (last l : LaneId) : l ∈ rotation last :=
  List.mem_map.2 ⟨l - (last + 1), List.mem_finRange _, add_sub_cancel _ _⟩

/-- At a level with no choice no lane of that priority is eligible. -/
theorem not_eligible_of_chooseAt {s : State} {e : EngineId} {p : Fin 4} (h : s.chooseAt e p = none) {l : LaneId}
    (hl : (s.settingsOf l).priority = p) : ¬ s.eligible e l = true := fun he => by
  have := List.find?_eq_none.1 h l (mem_rotation _ l)
  simp [he, hl] at this

theorem not_eligible_of_choose {s : State} {e : EngineId} (h : s.choose e = none) (l : LaneId) :
    ¬ s.eligible e l = true :=
  not_eligible_of_chooseAt (List.findSome?_eq_none_iff.1 h (s.settingsOf l).priority (by
    generalize (s.settingsOf l).priority = p
    revert p
    decide)) rfl

/-- The level at which the dispatcher found its lane: no lane of a higher priority is eligible (R106). -/
theorem chooseAt_of_choose {s : State} {e : EngineId} {l : LaneId} (h : s.choose e = some l) :
    s.chooseAt e (s.settingsOf l).priority = some l
      ∧ ∀ k, s.eligible e k = true → (s.settingsOf k).priority ≤ (s.settingsOf l).priority := by
  obtain ⟨higher, p, lower, whole, hp, none⟩ := List.findSome?_eq_some_iff.1 h
  have level : (s.settingsOf l).priority = p := by
    have := List.find?_some hp
    simp only [Bool.and_eq_true, beq_iff_eq] at this
    exact this.2
  rw [level]
  refine ⟨hp, fun k hk => ?_⟩
  have falling : (higher ++ p :: lower).Pairwise (· > ·) := whole ▸ (by decide)
  have place : (s.settingsOf k).priority ∈ higher ++ p :: lower := by
    rw [← whole]
    generalize (s.settingsOf k).priority = q
    revert q
    decide
  rcases List.mem_append.1 place with hh | hl
  · exact absurd hk (not_eligible_of_chooseAt (none _ hh) rfl)
  · rcases List.mem_cons.1 hl with heq | hl
    · exact heq.le
    · exact (List.rel_of_pairwise_cons (List.pairwise_append.1 falling).2.1 hl).le

/-- Among the lanes of its own priority the chosen lane is the first of the rotation. -/
theorem first_of_choose {s : State} {e : EngineId} {l k : LaneId} (h : s.choose e = some l) (hk : s.eligible e k = true) :
    (s.settingsOf k).priority < (s.settingsOf l).priority
      ∨ (s.settingsOf k).priority = (s.settingsOf l).priority
        ∧ (l - (s.lastServed[(s.settingsOf l).priority] + 1)).val
          ≤ (k - (s.lastServed[(s.settingsOf l).priority] + 1)).val := by
  obtain ⟨hl, highest⟩ := chooseAt_of_choose h
  exact (highest k hk).lt_or_eq.imp_right fun same => ⟨same, find?_rotation hl (by simp [hk, same])⟩

/-! ### The dispatch -/

/-- The head of a lane's queue goes to an engine, which claims its first item's meter (R97, R107, R110). -/
theorem dispatchTo_eq {s : State} (e : EngineId) {l : LaneId} {r : VendRequest} {rest : List VendRequest} {i : Item}
    {more : List Item} (hq : (s.lane l).queue = r :: rest) (hi : r.items = i :: more) :
    s.dispatchTo e l = { s with
      lanes := s.lanes.set l { s.lane l with queue := rest, inFlight := (s.lane l).inFlight ++ [(r.tag, e)] }
      lastServed := s.lastServed.set (s.settingsOf l).priority l
      }.claimed e ⟨l, r.tag, r.items, 0, .claim, [], {}⟩ i.meter := by
  have first : r.items[0]? = some i := by rw [hi]; rfl
  simp only [State.dispatchTo, hq, State.startItem, first]
  exact claim_eq_claimed _ e ⟨l, r.tag, r.items, 0, .claim, [], {}⟩ i.meter

/-- Settles O47: the choice is the first of its level's rotation and no higher level has one; the dispatch takes engine A's
choice before engine B's. -/
theorem dispatchServesThePriorities : Obligations.DispatchServesThePriorities := by
  intro s
  dsimp only
  simp only [← eligible_iff]
  refine ⟨fun e h l => not_eligible_of_choose h l, fun e l h => ⟨eligible_of_choose h, fun k hk => first_of_choose h hk⟩,
    fun ha hb => ?_, ?_⟩
  · show Host.Outcome.next s.dispatch = _
    simp only [State.dispatch, ha, hb]
  · rintro e l r rest i more hc hq hi
    rw [← dispatchTo_eq e hq hi]
    show Host.Outcome.next s.dispatch = _
    rcases hc with ⟨ha, rfl⟩ | ⟨ha, hb, rfl⟩
    · simp only [State.dispatch, ha]
    · simp only [State.dispatch, ha, hb]

end Sys2Proof.Machine
end

section
/-! Proofs: the timers (R85, R86, R140 to R142), and what a TICK has left due (log entry 3). -/
namespace Sys2Proof.Machine

open Sys2Proof

/-! ### TICK -/

/-- A TICK on a lane (R85, R86). -/
theorem tick_eq (limit : Nat) (l : Lane) :
    l.tick limit = if (l.state = .opened ∨ l.state = .restricted) ∧ l.locked = false then
      { l with idle := l.idle + 1, expiryDue := decide (limit ≤ l.idle + 1) } else l :=
  if_congr (Lane.unlocked_iff l) rfl rfl

/-- Settles O9: nothing is due, so the pulse is all that happens. -/
theorem tickCounts : Obligations.TickCounts := by
  intro s h
  show Host.Outcome.next s.settleTick.pulse = _
  rw [settleTick_of_settled s h, State.pulse, funext (tick_eq s.settings.idleLimit)]
  by_cases ready : s.office = .ready
  · simp only [if_pos ready]
  · simp only [if_neg ready]

/-! ### The steps that a TICK leaves due -/

/-- The minute step leaves the prescaler at 0 (R140). -/
theorem minuteStep_prescaler (s : State) : s.minuteStep.authority.prescaler = 0 := by
  unfold State.minuteStep
  dsimp only
  split <;> split <;> simp only [place_authority, setOverdue_authority] <;> rfl

theorem settleMinute_minuteDue (s : State) : s.settleMinute.authority.minuteDue = false := by
  unfold State.settleMinute
  split
  · simp [Authority.minuteDue, minuteStep_prescaler]
  · exact Bool.eq_false_iff.2 ‹_›

theorem settleMinute_lanes (s : State) : s.settleMinute.lanes = s.lanes := by
  unfold State.settleMinute
  split
  · exact minuteStep_lanes s
  · rfl

theorem expire_expiryDue (l : Lane) : l.expire.expiryDue = false := by
  unfold Lane.expire
  split
  · rfl
  · exact Bool.eq_false_iff.2 ‹_›

/-- With every due step taken nothing is left due. -/
theorem settleTick_settled (s : State) : s.settleTick.tickSettled = true := by
  have lanes : s.settleTick.lanes = s.lanes.map Lane.expire := settleMinute_lanes s.settleLanes
  have minute : s.settleTick.authority.minuteDue = false := settleMinute_minuteDue s.settleLanes
  simp only [State.tickSettled, lanes, minute, Bool.not_false, Bool.and_true, List.all_eq_true, Vector.toList_map,
    List.mem_map, forall_exists_index, and_imp, forall_apply_eq_imp_iff₂, expire_expiryDue, implies_true]

/-- The idle expiries of a list of lanes, one command after another. -/
theorem after_idleExpiries (s : State) (ls : List LaneId) : s.after (ls.map Instr.idleExpiry)
    = { s with lanes := Vector.ofFn fun k => if k ∈ ls then (s.lane k).expire else s.lane k } := by
  induction ls generalizing s with
  | nil =>
    have same : (Vector.ofFn fun k : LaneId => s.lane k) = s.lanes := Vector.ext fun i hi => by simp [State.lane]
    simp only [List.not_mem_nil, if_false, same]
    rfl
  | cons l ls ih =>
    show (s.updateLane l Lane.expire).after (ls.map Instr.idleExpiry) = _
    rw [ih]
    have lanes : ∀ k, (if k ∈ ls then ((s.updateLane l Lane.expire).lane k).expire else (s.updateLane l Lane.expire).lane k)
        = if k ∈ l :: ls then (s.lane k).expire else s.lane k := fun k => by
      by_cases hk : k = l
      · subst hk
        simp [Lane.expire_of_not_due _ (expire_expiryDue _)]
      · simp [updateLane_lane_other s l k _ hk, hk]
    simp only [lanes]
    rfl

/-- Every timer step still due, as the table's commands take them, and at once (log entry 3). -/
theorem after_dueSteps (s : State) :
    s.after ((List.finRange 8).map Instr.idleExpiry ++ [.dayAgeMinute]) = s.settleTick := by
  have lanes : (Vector.ofFn fun k : LaneId => if k ∈ List.finRange 8 then (s.lane k).expire else s.lane k)
      = s.lanes.map Lane.expire := Vector.ext fun i hi => by simp [State.lane, List.mem_finRange]
  rw [State.after, List.foldl_append]
  show (s.after ((List.finRange 8).map Instr.idleExpiry)).settleMinute = _
  rw [after_idleExpiries, lanes]
  rfl

/-- Every request is a frame that the link takes, with its owner's rules (R176). -/
theorem exec_commandOf (k : Kind) (lane : LaneId) (tag : Tag) (body : List Byte) :
    ∃ owner, ∀ s, exec (commandOf k lane tag body) s = .next (s.takeFrame k lane tag owner) := by
  cases k <;> exact ⟨_, fun _ => rfl⟩

/-- A frame on a free link is taken after what a TICK has left due. -/
theorem takeFrame_settleTick {s : State} (hr : s.resetHeld = false) (hi : s.exchange = .idle) (k : Kind) (lane : LaneId)
    (tag : Tag) (owner : State → State) : s.settleTick.takeFrame k lane tag owner = s.takeFrame k lane tag owner := by
  simp only [State.takeFrame, settleTick_resetHeld, settleTick_exchange, hr, hi,
    settleTick_of_settled _ (settleTick_settled s), Bool.false_eq_true, if_false]

/-- Settles O11: the due steps one by one are what a TICK and a taken frame settle first, and settling again changes nothing. -/
theorem dueStepsComeFirst : Obligations.DueStepsComeFirst := by
  intro s t ht
  obtain rfl : t = s.settleTick := ht.trans (after_dueSteps s)
  refine ⟨settleTick_settled s, ?_, fun hr hi k lane tag body => ?_⟩
  · show Host.Outcome.next s.settleTick.pulse = .next s.settleTick.settleTick.pulse
    rw [settleTick_of_settled _ (settleTick_settled s)]
  · obtain ⟨owner, h⟩ := exec_commandOf k lane tag body
    rw [h, h, takeFrame_settleTick hr hi]

/-! ### IDLE_EXPIRY and DAY_AGE_MINUTE -/

theorem exec_idleExpiry (lane : LaneId) (s : State) : exec (.idleExpiry lane) s = .next (s.updateLane lane Lane.expire) := rfl

theorem exec_dayAgeMinute (s : State) : exec .dayAgeMinute s = .next s.settleMinute := rfl

/-- The condition of R142 after a minute step. -/
theorem minute_overdueDue (s : State) : State.overdueDue { s with authority := s.authority.minute } = true
    ↔ s.authority.overdue = false ∧ s.settings.dayLimit * 60 ≤ s.authority.minute.dayAge := by
  simp [State.overdueDue, Authority.minute]

/-- A minute step comes to a whole hour of a day age that it has raised (R141). -/
theorem wholeHour_minute (a : Authority) :
    Authority.wholeHour a a.minute = true ↔ a.dayAge < 65535 ∧ a.minute.dayAge % 60 = 0 := by
  have raised : a.dayAge < min 65535 (a.dayAge + 1) ↔ a.dayAge < 65535 := by omega
  simp [Authority.wholeHour, Authority.minute, raised]

/-- A minute step that makes the day overdue (R142). -/
theorem minuteStep_of_overdue {s : State}
    (h : s.authority.overdue = false ∧ s.settings.dayLimit * 60 ≤ s.authority.minute.dayAge) :
    s.minuteStep = { s with
      authority := { s.authority.minute with overdue := true }
      events := { s.events with dayOverdue := true } }.place (.office .dayAge) := by
  simp only [State.minuteStep, (minute_overdueDue s).2 h, Bool.true_or, if_true]
  rfl

/-- A minute step that does not make the day overdue: the hourly write alone (R141). -/
theorem minuteStep_of_not_overdue {s : State}
    (h : ¬ (s.authority.overdue = false ∧ s.settings.dayLimit * 60 ≤ s.authority.minute.dayAge)) :
    s.minuteStep = if s.authority.dayAge < 65535 ∧ s.authority.minute.dayAge % 60 = 0 then
        { s with authority := s.authority.minute }.place (.office .dayAge)
      else { s with authority := s.authority.minute } := by
  simp only [State.minuteStep, Bool.eq_false_iff.2 (mt (minute_overdueDue s).1 h), Bool.false_or, wholeHour_minute]
  rfl

/-- Settles O10: each step by whether it is due, the minute by the overdue rule and then by the hour. -/
theorem timerStepsAct : Obligations.TimerStepsAct := by
  refine ⟨fun lane s => ⟨fun due => ?_, fun due => ?_⟩, ?_⟩
  · simp only [exec_idleExpiry, State.updateLane, Lane.expire, due, if_true]
    rfl
  · rw [exec_idleExpiry, State.updateLane, Lane.expire_of_not_due _ due]
    simp [State.setLane, State.lane]
  · rintro s a rfl
    rw [exec_dayAgeMinute]
    refine ⟨fun early => ?_, fun due => ⟨fun h => ?_, fun h => ⟨fun hour => ?_, fun hour => ?_⟩⟩⟩
    · rw [State.settleMinute, if_neg (by simpa [Authority.minuteDue] using early)]
    all_goals rw [State.settleMinute, if_pos (by simpa [Authority.minuteDue] using due)]
    · rw [minuteStep_of_overdue h]
      rfl
    · rw [minuteStep_of_not_overdue h]
      exact congrArg _ (if_pos hour)
    · rw [minuteStep_of_not_overdue h]
      exact congrArg _ (if_neg hour)

end Sys2Proof.Machine
end

section
/-! Proofs: the discipline count, and the close of a refused item (R87 to R89, R98, R100, R121). -/
namespace Sys2Proof.Machine

open Sys2Proof

/-! ### The discipline count -/

/-- A charge that raises no count of a lane that it could restrict or bar. -/
theorem raiseCount_of_kept {l : Lane} {isCounter : Bool} {n : Nat}
    (h : isCounter = false ∨ l.state = .closed ∨ l.state = .barred) :
    l.raiseCount isCounter n = { l with count := min 255 (l.count + n) } := by
  rcases h with h | h | h <;> simp [Lane.raiseCount, h]

/-- A charge that brings a counter lane at work to 255 bars it (R89). -/
theorem raiseCount_of_barring {l : Lane} {n : Nat} (hc : l.count < 255) (hs : l.state = .opened ∨ l.state = .restricted)
    (hn : 255 ≤ l.count + n) : l.raiseCount true n = { l with
      count := 255, state := .barred, locked := false, queue := [], idle := 0, expiryDue := false } := by
  have top : min 255 (l.count + n) = 255 := Nat.min_eq_left hn
  simp [Lane.raiseCount, top, hc, hs]

/-- A charge that brings a counter lane at work to 128 or more, and not to 255, restricts it (R88). -/
theorem raiseCount_of_restricting {l : Lane} {n : Nat} (hp : 0 < n) (hs : l.state = .opened ∨ l.state = .restricted)
    (hn : 128 ≤ l.count + n ∧ l.count + n < 255) :
    l.raiseCount true n = { l with count := l.count + n, state := .restricted } := by
  have held : min 255 (l.count + n) = l.count + n := Nat.min_eq_right hn.2.le
  have below : l.count + n ≠ 255 := hn.2.ne
  rcases hs with hs | hs
  · simp [Lane.raiseCount, held, below, hs, hn.1, hp]
  · simp [Lane.raiseCount, held, below, hs]

/-- A charge that stays below 128 raises the count alone. -/
theorem raiseCount_of_low {l : Lane} {n : Nat} (hn : l.count + n < 128) :
    l.raiseCount true n = { l with count := l.count + n } := by
  have held : min 255 (l.count + n) = l.count + n := Nat.min_eq_right (by omega)
  have below : l.count + n ≠ 255 := by omega
  simp [Lane.raiseCount, held, below, hn]

/-- What a charge keeps of every lane. -/
theorem raiseCount_keeps (l : Lane) (isCounter : Bool) (n : Nat) :
    let x := l.raiseCount isCounter n
    x.count = min 255 (l.count + n) ∧ x.inFlight = l.inFlight ∧ x.foreground = l.foreground ∧ x.background = l.background
      ∧ x.operator = l.operator ∧ x.tally = l.tally := by
  unfold Lane.raiseCount
  dsimp only
  split
  · exact ⟨rfl, rfl, rfl, rfl, rfl, rfl⟩
  · split <;> exact ⟨rfl, rfl, rfl, rfl, rfl, rfl⟩

/-- Settles O23: what every charge keeps, then the lanes that keep their state, then the two thresholds. -/
theorem chargesRaiseTheCount : Obligations.ChargesRaiseTheCount := by
  intro l isCounter n _ hp
  dsimp only
  obtain ⟨count, inFlight, foreground, background, operator, tally⟩ := raiseCount_keeps l isCounter n
  refine ⟨count, inFlight, foreground, background, operator, tally, fun h => raiseCount_of_kept (.inl h),
    fun h => raiseCount_of_kept (.inr h), ?_⟩
  rintro rfl hc hs
  refine ⟨fun hn => ?_, raiseCount_of_restricting hp hs, raiseCount_of_low⟩
  rw [raiseCount_of_barring hc hs hn]
  exact ⟨rfl, rfl, rfl, rfl⟩

/-! ### A refused item -/

/-- The codes that cost the lane one (R87). -/
theorem costs_iff (code : RefusalCode) : code.costs = true
    ↔ code = .noMeter ∨ code = .meterState ∨ code = .limitLow ∨ code = .limitHigh ∨ code = .nothingDue := by
  cases code <;> decide

/-- A charge on a lane of the bank with its event flag (R87, R89). -/
theorem stateRaiseCount_eq (s : State) (lane : LaneId) (n : Nat) :
    let x := (s.lane lane).raiseCount (lane != 0) n
    s.raiseCount lane n = { s with
      lanes := s.lanes.set lane x
      events := { s.events with
        laneBarred := s.events.laneBarred || ((s.lane lane).state != .barred && x.state == .barred) } } := by
  dsimp only
  unfold State.raiseCount
  dsimp only
  split
  · rename_i enters
    simp [State.setLane, State.raiseLaneBarred, enters]
  · rename_i stays
    have clear : ((s.lane lane).state != .barred && ((s.lane lane).raiseCount (lane != 0) n).state == .barred) = false := by
      simpa [Bool.eq_false_iff] using stays
    simp [State.setLane, clear]

/-- A lane as a refused item's report leaves its tally (R100). -/
def Lane.toldRefused (l : Lane) : Lane :=
  { l with tally := { l.tally with refused := min 4294967295 (l.tally.refused + 1) } }

/-- A lane as a refused item's report leaves it, its count raised for five codes (R87, R100). -/
def Lane.countedRefused (l : Lane) (isCounter : Bool) (code : RefusalCode) : Lane :=
  if code = .noMeter ∨ code = .meterState ∨ code = .limitLow ∨ code = .limitHigh ∨ code = .nothingDue then
    l.toldRefused.raiseCount isCounter 1
  else l.toldRefused

/-- The report of a refused item to its lane (R87, R89, R100). -/
theorem reportRefused_eq (s : State) (lane : LaneId) (code : RefusalCode) :
    s.reportRefused lane code = { s with
      lanes := s.lanes.set lane ((s.lane lane).countedRefused (lane != 0) code)
      events := { s.events with
        laneBarred := s.events.laneBarred || ((s.lane lane).state != .barred
          && ((s.lane lane).countedRefused (lane != 0) code).state == .barred) } } := by
  have told : (s.updateLane lane Lane.toldRefused).lane lane = (s.lane lane).toldRefused := updateLane_lane s lane _
  unfold Lane.countedRefused
  show (if code.costs then (s.updateLane lane Lane.toldRefused).raiseCount lane 1 else s.updateLane lane Lane.toldRefused) = _
  by_cases costs : code.costs = true
  · rw [if_pos costs, if_pos ((costs_iff code).1 costs), stateRaiseCount_eq, told, updateLane_lanes, Vector.set_set]
    rfl
  · have same : ((s.lane lane).state != .barred && (s.lane lane).toldRefused.state == .barred) = false := by
      simp [Lane.toldRefused]
    rw [if_neg costs, if_neg (mt (costs_iff code).2 costs), same, Bool.or_false]
    rfl

/-- An item REFUSED: the later items are skipped, and the request ends (R121). -/
theorem endItem_of_refused (s : State) (e : EngineId) (b : BusyEngine) (code : RefusalCode) :
    s.endItem e b (.refused code) = s.ended e b.lane b.tag
      (b.outcomes ++ .refused code :: List.replicate (b.items.length - b.item - 1) (.skipped .priorRefusal)) := by
  simp only [State.endItem, endRequest_eq, BusyEngine.skipRest, Nat.sub_sub, List.append_assoc, List.singleton_append]

/-- Settles O49: the lock, the report to the lane, and the end of the request. -/
theorem refusedItemEndsItsRequest : Obligations.RefusedItemEndsItsRequest := by
  intro e b code s
  rw [State.refuseItem, reportRefused_eq, endItem_of_refused]
  rfl

end Sys2Proof.Machine
end

section
/-! Proofs: the counter requests of a lane (R79, R84, R87, R92 to R95, R99, R101). -/
namespace Sys2Proof.Machine

open Sys2Proof

/-! ### VEND -/

/-- Zone admission of every meter of a lane (R75, R77). -/
theorem zoneAdmits_eq (lane : LaneId) (st : LaneSettings) :
    zoneAdmits lane st = fun m => decide (lane = 0 ∨ (zoneHit st m).isSome) := by
  funext m
  simp [zoneAdmits, Bool.beq_eq_decide_eq]

/-- Checks 8 to 10 of R93 on a VEND that has just been taken, and the request's place in the queue. -/
theorem working_acceptVend (s : State) (lane : LaneId) (tag : Tag) (items : List Item) :
    (s.working .vend lane tag).acceptVend lane tag items =
      if lane ≠ 0 ∧ ∃ i ∈ items, i.isService = true then
        s.replied .vend lane tag { s.lane lane with idle := 0 } .notSupervisor .empty
      else match firstFailing meterOk items with
        | some n => s.charged .vend lane tag 1 .badMeterNumber (.failingItem n)
        | none => match firstFailing (fun m => lane = 0 ∨ (zoneHit (s.settingsOf lane) m).isSome) items with
          | some n => s.charged .vend lane tag 8 .outsideZone (.failingItem n)
          | none => s.replied .vend lane tag
              { s.lane lane with idle := 0, queue := (s.lane lane).queue ++ [⟨tag, items⟩] } .accepted
              (.queued ((s.lane lane).queue.length + 1)) := by
  have settings : (s.working .vend lane tag).settingsOf lane = s.settingsOf lane := rfl
  refine if_congr (by rw [List.any_eq_true]) (working_answer s .vend lane tag .notSupervisor rfl) ?_
  cases firstFailing meterOk items with
  | some n => exact working_charge s .vend lane tag _ _ 1 (by decide) rfl
  | none =>
    rw [settings, zoneAdmits_eq]
    cases firstFailing (fun m => decide (lane = 0 ∨ (zoneHit (s.settingsOf lane) m).isSome)) items with
    | some n => exact working_charge s .vend lane tag _ _ 8 (by decide) rfl
    | none =>
      dsimp only
      rw [updateLane_lane, State.updateLane, working_setLane_respond s .vend lane tag _ .accepted _ rfl, working_lane,
        List.length_append, List.length_singleton]

/-- Settles O15: the checks one by one on the state that has taken the frame. -/
theorem vendAnswers : Obligations.VendAnswers := by
  intro lane tag body s ht
  have ready : (s.working .vend lane tag).office = .ready := ht.2.2.1
  have context : (s.working .vend lane tag).lane lane = { s.lane lane with idle := 0 } := working_lane ..
  have refuse := fun code h => working_answer s .vend lane tag code h
  dsimp only
  show Host.Outcome.next _ = _
  rw [takeFrame_of_takes s _ lane tag _ ht (.inl rfl), State.vendRequest]
  refine congrArg Host.Outcome.next (if_congr (by rw [context]) (refuse .laneState rfl) ?_)
  rw [if_neg (by rw [ready]; decide), if_neg (by rw [ready]; decide)]
  refine if_congr Iff.rfl (refuse .supply rfl) (if_congr Iff.rfl (refuse .dayOverdue rfl)
    (if_congr (by rw [context]) (refuse .queueFull rfl)
      (if_congr (by rw [context, Lane.holdsTag_iff]) (refuse .duplicateTag rfl) ?_)))
  cases decodeVend body with
  | none => exact refuse .badField rfl
  | some items => exact working_acceptVend s lane tag items

/-! ### CANCEL and COLLECT -/

/-- Admission of COLLECT (R79). -/
theorem admitsCollect_iff (l : Lane) : (l.unlocked || l.state == .barred) = true
    ↔ ((l.state = .opened ∨ l.state = .restricted) ∧ l.locked = false) ∨ l.state = .barred := by
  rw [Bool.or_eq_true, Lane.unlocked_iff, beq_iff_eq]

/-- CANCEL of a tag on a lane that has just taken the frame (R95). -/
theorem working_cancelTag (s : State) (lane : LaneId) (tag : Tag) :
    (s.working .cancel lane tag).cancelTag lane tag =
      if tag ∈ (s.lane lane).queue.map (·.tag) then s.replied .cancel lane tag
        { s.lane lane with idle := 0, queue := (s.lane lane).queue.filter fun r => r.tag ≠ tag } .cancelled .empty
      else if tag ∈ (s.lane lane).inFlight.map (·.1) ∨ some tag = (s.lane lane).foreground.map (·.tag)
          ∨ some tag = (s.lane lane).background.map (·.tag) then
        s.replied .cancel lane tag { s.lane lane with idle := 0 } .tooLate .empty
      else s.replied .cancel lane tag { s.lane lane with idle := 0 } .notFound .empty := by
  have queued : (s.lane lane).queue.any (·.tag == tag) = true ↔ tag ∈ (s.lane lane).queue.map (·.tag) := by simp
  have others : (s.lane lane).queue.filter (·.tag != tag) = (s.lane lane).queue.filter fun r => r.tag ≠ tag :=
    List.filter_congr fun r _ => by rw [bne, beq_eq_decide, decide_not]
  rw [State.cancelTag, working_lane]
  dsimp only
  rw [others]
  by_cases hq : tag ∈ (s.lane lane).queue.map (·.tag)
  · rw [if_pos hq, if_pos (queued.2 hq)]
    exact working_setLane_respond s .cancel lane tag _ .cancelled .empty rfl
  · rw [if_neg hq, if_neg (mt queued.1 hq)]
    refine if_congr ?_ (working_answer s .cancel lane tag .tooLate rfl) (working_answer s .cancel lane tag .notFound rfl)
    rw [Lane.holdsTag_iff]
    exact or_iff_right hq

/-- COLLECT on a lane that has just taken the frame (R99). -/
theorem working_collectResult (s : State) (lane : LaneId) (tag : Tag) :
    (s.working .collect lane tag).collectResult lane = match (s.lane lane).foreground with
      | some r => s.replied .collect lane tag
          { s.lane lane with idle := 0, foreground := (s.lane lane).background, background := none } .done (.result r.outcomes)
      | none => s.replied .collect lane tag { s.lane lane with idle := 0 } .noResult .empty := by
  rw [State.collectResult, working_lane, working_answer s .collect lane tag .noResult rfl]
  dsimp only
  cases (s.lane lane).foreground with
  | some r => exact working_setLane_respond s .collect lane tag _ .done _ rfl
  | none => rfl

/-- Settles O16: both requests by their admission, and then by where the tag or the result stands. -/
theorem cancelAndCollectAnswer : Obligations.CancelAndCollectAnswer := by
  intro lane tag s ht
  dsimp only
  constructor
  · show Host.Outcome.next _ = _
    rw [takeFrame_of_takes s _ lane tag _ ht (.inl rfl), State.cancelRequest, working_admitEnquiry]
    exact congrArg Host.Outcome.next (if_congr Iff.rfl rfl (working_cancelTag s lane tag))
  · show Host.Outcome.next _ = _
    rw [takeFrame_of_takes s _ lane tag _ ht (.inl rfl), State.collectRequest, State.admitCollect, working_lane]
    exact congrArg Host.Outcome.next (if_congr (admitsCollect_iff _) (working_collectResult s lane tag)
      (working_answer s .collect lane tag .laneState rfl))

/-! ### RESUME -/

/-- RESUME with a well-formed code on a lane that has just taken the frame (R84). -/
theorem working_resumeWith (s : State) (lane : LaneId) (tag : Tag) (code : Nat) :
    (s.working .resume lane tag).resumeWith lane code =
      if (if lane = 0 then some s.settings.supervisorCode else (s.lane lane).operator.bind (·.code)) = some code then
        s.replied .resume lane tag { s.lane lane with idle := 0, locked := false } .done .empty
      else s.charged .resume lane tag 8 .badOperator .empty := by
  have context : (s.working .resume lane tag).lane lane = { s.lane lane with idle := 0 } := working_lane ..
  refine if_congr (by rw [State.resumeCode, context]; rfl) ?_ (working_charge s .resume lane tag _ _ 8 (by decide) rfl)
  rw [State.updateLane, State.answer, working_setLane_respond s .resume lane tag _ .done .empty rfl, context]

/-- Settles O17: the admission, the decoder, and then the code. -/
theorem resumeAnswers : Obligations.ResumeAnswers := by
  intro lane tag body s ht
  dsimp only
  show Host.Outcome.next _ = _
  rw [takeFrame_of_takes s _ lane tag _ ht (.inl rfl), State.resumeRequest, State.admitResume, working_lane]
  refine congrArg Host.Outcome.next (if_congr (by rw [Bool.or_eq_true, beq_iff_eq, beq_iff_eq]) ?_
    (working_answer s .resume lane tag .laneState rfl))
  cases decodeCode body with
  | none => exact working_answer s .resume lane tag .badField rfl
  | some code => exact working_resumeWith s lane tag code

/-! ### LANE_STATUS -/

/-- The report of a lane while its own frame, or another lane's, is in hand (R85, R101). -/
theorem working_laneReport (s : State) (k : Kind) (lane n : LaneId) (tag : Tag) :
    (s.working k lane tag).laneReport n =
      { lane := n, state := (s.lane n).state, locked := (s.lane n).locked, operatorId := (s.lane n).operator.map (·.id)
        count := (s.lane n).count, warning := 96 ≤ (s.lane n).count, idle := if n = lane then 0 else (s.lane n).idle
        queue := (s.lane n).queue.map (·.tag), inFlight := (s.lane n).inFlight
        foreground := (s.lane n).foreground.map (·.tag), background := (s.lane n).background.map (·.tag)
        tally := (s.lane n).tally, settings := s.settingsOf n } := by
  rw [State.laneReport]
  by_cases h : n = lane
  · subst h
    rw [working_lane, if_pos rfl]
    rfl
  · rw [working_lane_other s k lane n tag h, if_neg h]
    rfl

/-- Settles O18: the decoder, the lane it is sent on, and for a lane it names the supervisor's admission. -/
theorem laneStatusAnswers : Obligations.LaneStatusAnswers := by
  intro lane tag body s ht reply report
  have refuse := fun code h => working_answer s .laneStatus lane tag code h
  have reports : ∀ n, (s.working .laneStatus lane tag).respond .done
      (.lane ((s.working .laneStatus lane tag).laneReport n)) = reply .done (report n (s.lane n)) := fun n => by
    rw [working_laneReport]
    exact working_respond s .laneStatus lane tag .done _ rfl
  show Host.Outcome.next _ = _
  rw [takeFrame_of_takes s _ lane tag _ ht (.inl rfl), State.laneStatusRequest]
  refine congrArg Host.Outcome.next ?_
  rcases decodeLaneStatus body with _ | _ | n
  · exact refuse .badField rfl
  · exact reports lane
  · refine ite_congr rfl (fun _ => refuse .badField rfl) fun zero => ?_
    obtain rfl : lane = 0 := not_not.1 zero
    by_cases own : n = 0
    · subst own
      exact (reports 0).trans (if_pos (.inl rfl)).symm
    · rw [if_neg own, State.supervise, working_supervisorOpen]
      exact if_congr (or_iff_right own).symm (reports n) (refuse .laneState rfl)

end Sys2Proof.Machine
end

section
/-! Proofs: the supervisor's lane requests (R78, R79, R81 to R83, R91). -/
namespace Sys2Proof.Machine

open Sys2Proof

/-! ### A lane number -/

/-- A body of one byte names a lane, or none (R83, R91). -/
theorem decodeLane_byte (b : Byte) : decodeLane [b] = laneOf b.toNat := by
  have value : bytesToNat [b] = b.toNat := by simp [bytesToNat]
  simp only [decodeLane, readNumber, List.length_singleton, Nat.le_refl, if_true, Option.bind_eq_bind,
    Option.bind_some, List.take_succ_cons, List.take_zero, List.drop_succ_cons, List.drop_zero, value]
  cases laneOf b.toNat <;> rfl

theorem decodeLane_of_high {b : Byte} (h : 8 ≤ b.toNat) : decodeLane [b] = none := by
  rw [decodeLane_byte, laneOf, dif_neg (by omega)]

theorem decodeLane_of_lane {b : Byte} {n : LaneId} (h : b.toNat = n.val) : decodeLane [b] = some n := by
  rw [decodeLane_byte, laneOf, dif_pos (by omega)]
  exact congrArg some (Fin.ext h)

/-! ### The lanes while a supervisor's request is in hand -/

/-- A lane named by a supervisor's request differs in its idle seconds at most, for lane 0 itself. -/
theorem working_lane_idle (s : State) (k : Kind) (tag : Tag) (n : LaneId) :
    ∃ i, (s.working k 0 tag).lane n = { s.lane n with idle := i } := by
  by_cases hn : n = 0
  · subst hn
    exact ⟨0, working_lane ..⟩
  · exact ⟨(s.lane n).idle, working_lane_other s k 0 n tag hn⟩

/-- A lane that a supervisor's request changes, with the reply to the request. -/
theorem working_setLane_completed (s : State) (k : Kind) (tag : Tag) (n : LaneId) (x : Lane) (code : ResultCode)
    (body : ReplyBody) (hc : replyCharge code = 0) :
    ((s.working k 0 tag).setLane n x).respond code body
      = ((s.setLane 0 { s.lane 0 with idle := 0 }).setLane n x).completed 0 (requestHeader k 0 tag) false code body :=
  respond_of_working _ 0 (requestHeader k 0 tag) false code body rfl hc

/-- A lane other than lane 0 that a supervisor's request changes, with the reply to the request. -/
theorem working_setLane_respond_other (s : State) (k : Kind) (tag : Tag) {n : LaneId} (hn : n ≠ 0) (x : Lane)
    (code : ResultCode) (body : ReplyBody) (hc : replyCharge code = 0) :
    ((s.working k 0 tag).setLane n x).respond code body
      = (s.setLane n x).replied k 0 tag { s.lane 0 with idle := 0 } code body := by
  have swap : (s.lanes.set (0 : LaneId) { s.lane 0 with idle := 0 }).set n x
      = (s.lanes.set n x).set (0 : LaneId) { s.lane 0 with idle := 0 } :=
    Vector.set_comm _ _ fun e => hn (Fin.ext e.symm)
  have own : ((s.working k 0 tag).setLane n x).lane 0 = { s.lane 0 with idle := 0 } := by
    rw [setLane_lane_other _ n 0 x hn.symm, working_lane]
  rw [respond_of_working _ 0 (requestHeader k 0 tag) false code body rfl hc, State.completed, own]
  exact congrArg (fun lanes => { s with
    lanes := lanes
    exchange := .replyReady ⟨requestHeader k 0 tag, code, ({ s.lane 0 with idle := 0 } : Lane).warns, false, body⟩ }) swap

/-! ### OPEN_LANE -/

/-- An OPEN_LANE body that decodes to lane 0 names lane 0 by its first byte (log entry 15). -/
theorem namesLaneZero_of_decode {body : List Byte} {id code : Nat} (h : decodeOpenLane body = some (0, id, code)) :
    namesLaneZero body = true := by
  cases body with
  | nil => cases h
  | cons b rest =>
    simp only [decodeOpenLane, Option.bind_eq_bind, Option.bind_eq_some_iff] at h
    obtain ⟨⟨v, bs⟩, hv, lane, hl, p, -, q, -, he⟩ := h
    have value : v = b.toNat := by simpa [readNumber, bytesToNat] using (congrArg (Option.map Prod.fst) hv).symm
    obtain rfl : lane = 0 := by
      unfold readEnd at he
      split at he
      · exact (Prod.mk.inj (Option.some.inj he)).1
      · cases he
    unfold laneOf at hl
    split at hl
    · have zero : b.toNat = 0 := value ▸ congrArg Fin.val (Option.some.inj hl)
      simp [namesLaneZero, BitVec.eq_of_toNat_eq (y := 0#8) zero]
    · cases hl

/-- The admission of OPEN_LANE (R79, R82). -/
theorem working_openLaneRequest (s : State) (tag : Tag) (body : List Byte)
    (h : s.supervisorOpen = true ∨ namesLaneZero body = true ∧ (s.lane 0).state = .closed) :
    State.openLaneRequest body (s.working .openLane 0 tag) = match decodeOpenLane body with
      | none => s.replied .openLane 0 tag { s.lane 0 with idle := 0 } .badField .empty
      | some (lane, id, code) =>
        if lane = 0 then (s.working .openLane 0 tag).openSupervisorLane id code
        else (s.working .openLane 0 tag).openCounterLane lane id code := by
  have admitted : ((s.working .openLane 0 tag).supervisorOpen
      || (((s.working .openLane 0 tag).lane 0).state == .closed && namesLaneZero body)) = true := by
    rw [working_supervisorOpen, working_lane]
    simpa [and_comm] using h
  refine (if_pos admitted).trans ?_
  cases decodeOpenLane body with
  | none => exact working_answer s .openLane 0 tag .badField rfl
  | some p => rfl

/-- OPEN_LANE for a lane of 1 to 7, taken on lane 0 (R81). -/
theorem working_openCounterLane (s : State) (tag : Tag) {n : LaneId} (hn : n ≠ 0) (id code : Nat) :
    (s.working .openLane 0 tag).openCounterLane n id code =
      if (s.lane n).state ≠ .closed then s.replied .openLane 0 tag { s.lane 0 with idle := 0 } .laneState .empty
      else (s.setLane n ((s.lane n).signOn ⟨id, some code⟩)).replied .openLane 0 tag { s.lane 0 with idle := 0 } .done
        .empty := by
  rw [State.openCounterLane, State.updateLane, working_lane_other s .openLane 0 n tag hn]
  exact if_congr Iff.rfl (working_answer s .openLane 0 tag .laneState rfl)
    (working_setLane_respond_other s .openLane tag hn _ .done .empty rfl)

/-- OPEN_LANE for lane 0 (R82). -/
theorem working_openSupervisorLane (s : State) (tag : Tag) (id code : Nat) :
    (s.working .openLane 0 tag).openSupervisorLane id code =
      if (s.lane 0).state ≠ .closed then s.replied .openLane 0 tag { s.lane 0 with idle := 0 } .laneState .empty
      else if code ≠ s.settings.supervisorCode then s.charged .openLane 0 tag 8 .badOperator .empty
      else s.replied .openLane 0 tag ((s.lane 0).signOn ⟨id, none⟩) .done .empty := by
  rw [State.openSupervisorLane, State.updateLane, working_lane]
  exact if_congr Iff.rfl (working_answer s .openLane 0 tag .laneState rfl)
    (if_congr Iff.rfl (working_charge s .openLane 0 tag _ _ 8 (by decide) rfl)
      (working_setLane_respond s .openLane 0 tag _ .done .empty rfl))

/-- Settles O19: the admission and the decoder, then the lane that the body names. -/
theorem openLaneAnswers : Obligations.OpenLaneAnswers := by
  refine ⟨fun tag body s ht hd ha => ?_, fun tag body n id code s ht hd ha => ?_⟩
  · show Host.Outcome.next _ = _
    rw [takeFrame_of_takes s _ 0 tag _ ht (.inr rfl), working_openLaneRequest s tag body ha, hd]
  · have admitted : s.supervisorOpen = true ∨ namesLaneZero body = true ∧ (s.lane 0).state = .closed :=
      ha.imp_right fun ⟨hn, hc⟩ => ⟨namesLaneZero_of_decode (hn ▸ hd), hc⟩
    intro opened
    show Host.Outcome.next _ = _
    rw [takeFrame_of_takes s _ 0 tag _ ht (.inr rfl), working_openLaneRequest s tag body admitted, hd]
    refine congrArg Host.Outcome.next ?_
    by_cases hn : n = 0
    · subst hn
      exact working_openSupervisorLane s tag id code
    · refine (if_neg hn).trans ((working_openCounterLane s tag hn id code).trans (if_congr Iff.rfl rfl ?_))
      exact (if_pos hn).symm

/-! ### CLOSE_LANE -/

theorem quiet_iff (l : Lane) :
    l.quiet = true ↔ l.queue = [] ∧ l.inFlight = [] ∧ l.foreground = none ∧ l.background = none := by
  simp [Lane.quiet, and_assoc]

/-- CLOSE_LANE of a named lane, taken on lane 0 (R83). -/
theorem working_closeLane (s : State) (tag : Tag) (n : LaneId) :
    (s.working .closeLane 0 tag).closeLane n =
      if (s.lane n).state = .closed then s.replied .closeLane 0 tag { s.lane 0 with idle := 0 } .laneState .empty
      else if (s.lane n).queue ≠ [] ∨ (s.lane n).inFlight ≠ [] ∨ (s.lane n).foreground ≠ none
          ∨ (s.lane n).background ≠ none then
        s.replied .closeLane 0 tag { s.lane 0 with idle := 0 } .laneBusy .empty
      else ((s.setLane 0 { s.lane 0 with idle := 0 }).setLane n (s.lane n).signOff).completed 0
        (requestHeader .closeLane 0 tag) false .done (.shiftTally (s.lane n).tally) := by
  obtain ⟨i, lane⟩ := working_lane_idle s .closeLane tag n
  have busy : (!({ s.lane n with idle := i } : Lane).quiet) = true ↔ (s.lane n).queue ≠ [] ∨ (s.lane n).inFlight ≠ []
      ∨ (s.lane n).foreground ≠ none ∨ (s.lane n).background ≠ none := by
    rw [Bool.not_eq_true', ← Bool.not_eq_true, quiet_iff]
    simp only [not_and_or, ne_eq]
  rw [State.closeLane, lane]
  exact if_congr Iff.rfl (working_answer s .closeLane 0 tag .laneState rfl)
    (if_congr busy (working_answer s .closeLane 0 tag .laneBusy rfl)
      (working_setLane_completed s .closeLane tag n _ .done _ rfl))

/-- Settles O20: the decoder, and then the lane that the byte names. -/
theorem closeLaneAnswers : Obligations.CloseLaneAnswers := by
  intro tag b s ht
  dsimp only
  refine ⟨fun high => ?_, fun n hn => ?_⟩
  · show Host.Outcome.next _ = _
    rw [takeSupervisor_of_takes s _ tag _ ht, State.closeLaneRequest, decodeLane_of_high high]
    exact congrArg Host.Outcome.next (working_answer s .closeLane 0 tag .badField rfl)
  · show Host.Outcome.next _ = _
    rw [takeSupervisor_of_takes s _ tag _ ht, State.closeLaneRequest, decodeLane_of_lane hn]
    exact congrArg Host.Outcome.next (working_closeLane s tag n)

/-! ### SET_LANE -/

/-- Check 2 of R78 while the request is in hand. -/
theorem working_laneSettable_iff (s : State) (tag : Tag) (n : LaneId) : (s.working .setLane 0 tag).laneSettable n = true
    ↔ (n ≠ 0 ∧ (s.lane n).state = .closed) ∨ (n = 0 ∧ (s.lane 0).queue = [] ∧ (s.lane 0).inFlight = []
      ∧ (s.lane 0).foreground = none ∧ (s.lane 0).background = none) := by
  obtain ⟨i, lane⟩ := working_lane_idle s .setLane tag n
  rw [State.laneSettable, lane]
  by_cases hn : n = 0
  · subst hn
    simp [quiet_iff]
  · simp [hn]

/-- SET_LANE that decodes, taken on lane 0 (R78). -/
theorem working_setLaneRequest (s : State) (tag : Tag) (body : List Byte) (n : LaneId) (given : LaneSettings) (names : Bool)
    (hd : decodeSetLane body = some (n, given, names)) :
    State.setLaneRequest body (s.working .setLane 0 tag) =
      if (n ≠ 0 ∧ (s.lane n).state = .closed) ∨ (n = 0 ∧ (s.lane 0).queue = [] ∧ (s.lane 0).inFlight = []
          ∧ (s.lane 0).foreground = none ∧ (s.lane 0).background = none) then
        (s.working .setLane 0 tag).place (.setLane n given names)
      else s.replied .setLane 0 tag { s.lane 0 with idle := 0 } .laneState .empty := by
  rw [State.setLaneRequest, hd]
  exact if_congr (working_laneSettable_iff s tag n) rfl (working_answer s .setLane 0 tag .laneState rfl)

/-- Settles O21: on receipt the decoder and check 2 of R78; at completion the settings taken go to the row and the lane. -/
theorem setLaneAnswersAndTakesEffect : Obligations.SetLaneAnswersAndTakesEffect := by
  refine ⟨fun tag body s ht hd => ?_, fun tag body n given names s ht hd => ?_, ?_⟩
  · show Host.Outcome.next _ = _
    rw [takeSupervisor_of_takes s _ tag _ ht, State.setLaneRequest, hd]
    exact congrArg Host.Outcome.next (working_answer s .setLane 0 tag .badField rfl)
  · show Host.Outcome.next _ = _
    rw [takeSupervisor_of_takes s _ tag _ ht, working_setLaneRequest s tag body n given names hd]
  · rintro n lane given taken names overlap h s hc he rfl
    show execLaneSettingsWriteDone s = _
    rw [execLaneSettingsWriteDone, hc]
    exact congrArg Host.Outcome.next (finishOp_respond _ lane h overlap .done _ (by exact he) rfl)

/-! ### CLEAR_LANE_COUNT -/

/-- Settles O22: the decoder, and then the lane that the byte names, its count cleared while the request is in hand. -/
theorem clearLaneCountAnswers : Obligations.ClearLaneCountAnswers := by
  intro tag b s ht
  refine ⟨fun high => ?_, fun n hn => ?_⟩
  · show Host.Outcome.next _ = _
    rw [takeSupervisor_of_takes s _ tag _ ht, State.clearLaneCountRequest, decodeLane_of_high high]
    exact congrArg Host.Outcome.next (working_answer s .clearLaneCount 0 tag .badField rfl)
  · show Host.Outcome.next _ = _
    rw [takeSupervisor_of_takes s _ tag _ ht, State.clearLaneCountRequest, decodeLane_of_lane hn]
    exact congrArg Host.Outcome.next (working_setLane_completed s .clearLaneCount tag n
      ((s.working .clearLaneCount 0 tag).lane n).clearCount .done _ rfl)

end Sys2Proof.Machine
end

section
/-! Proofs: the writes of a commit, and what its marker holds (R115, R116, R119, R132, R135, R158, R159). -/
namespace Sys2Proof.Machine

open Sys2Proof

/-! ### What an item commits -/

/-- A key change pair makes the pending generation the record's; with none pending the record stays (R5, R58). -/
theorem rekeyed_eq (r : MeterRecord) : r.rekeyed = { r with
    keyGeneration := r.pendingGeneration.getD r.keyGeneration
    pendingGeneration := none } := by
  obtain ⟨_, _, _, _, pending⟩ := r
  cases pending <;> rfl

theorem priced_pendingGeneration (r : MeterRecord) (c : Option Calculation) :
    (r.priced c).pendingGeneration = r.pendingGeneration := by
  cases c <;> rfl

theorem priced_keyGeneration (r : MeterRecord) (c : Option Calculation) :
    (r.priced c).keyGeneration = r.keyGeneration := by
  cases c <;> rfl

/-- An item with no token to issue and no generation pending leaves the priced record as its image (R115). -/
theorem image_of_no_tokens {w : WorkingValues} {r : MeterRecord} (tender : Nat) (ht : w.tokens = [])
    (hp : r.pendingGeneration = none) : w.image r tender = r.priced w.calculation := by
  have kept : (r.priced w.calculation).pendingGeneration = none := (priced_pendingGeneration r _).trans hp
  simp only [WorkingValues.image, MeterRecord.withGroup, MeterRecord.rekeyed, ht, List.getLast?_nil, kept]

/-- A group becomes the last sale, and its last token's sequence the record's (R4, R57, R115, R116). -/
theorem image_of_tokens {w : WorkingValues} {t : Token} (r : MeterRecord) (tender : Nat)
    (ht : w.tokens.getLast? = some t) : w.image r tender = { r.priced w.calculation with
      sequence := t.sequence
      lastSale := some ⟨w.tokens, tender, (w.calculation.map (·.bought)).getD 0⟩
      keyGeneration := r.pendingGeneration.getD r.keyGeneration
      pendingGeneration := none } := by
  simp only [WorkingValues.image, MeterRecord.withGroup, ht, rekeyed_eq, priced_pendingGeneration, priced_keyGeneration]

/-! ### The three writes -/

theorem exec_commitMarkerWritten {s : State} {e : EngineId} {k : Marker} (hc : s.current = some (.commitMarker e k)) :
    exec .commitMarkerWritten s = .next (s.markerWritten e k) := by
  show execCommitMarkerWritten s = _
  simp only [execCommitMarkerWritten, hc]

theorem exec_commitMeterRowWritten {s : State} {e : EngineId} {k : Marker} (hc : s.current = some (.commitMeter e k)) :
    exec .commitMeterRowWritten s = .next (s.meterRowWritten e k) := by
  show execCommitMeterRowWritten s = _
  simp only [execCommitMeterRowWritten, hc]

theorem exec_commitOfficeRowWritten {s : State} {e : EngineId} {k : Marker}
    (hc : s.current = some (.office (.commit e k))) :
    exec .commitOfficeRowWritten s = .next (s.officeRowWritten e k) := by
  show execCommitOfficeRowWritten s = _
  simp only [execCommitOfficeRowWritten, hc]

/-- What a commit's write of a meter row does to the row's condition (R159). -/
theorem commitRow_eq (t : Store) (n : Nat) (m : MeterNumber) : t.commitRow n m =
    if t.condition n = RowCondition.record then t.undamage n
    else if t.condition n = RowCondition.orphan ∧ t.rowOf m = none then
      ((t.setCondition n .record).indexMeter m n).unlistOrphan n
    else t := by
  cases hc : t.condition n <;> simp [Store.commitRow, hc]

/-- Settles O50: the completion of each write, and then the marker by whether the item has a calculation and tokens. -/
theorem commitWritesInOrder : Obligations.CommitWritesInOrder := by
  refine fun e k s => ⟨fun hc => exec_commitMarkerWritten hc, fun hc => ?_, fun row b hp hb => ?_, ?_⟩
  · rw [exec_commitMeterRowWritten hc, State.meterRowWritten, commitRow_eq]
    rfl
  · have hc : s.current = some (.office (.commit e k)) := by rw [State.current, hp]; rfl
    rw [exec_commitOfficeRowWritten hc, officeRowWritten_eq k hb, State.spentBy, State.officeWritten, State.formedRow, hp]
    rfl
  · refine fun w i r n count image => ⟨rfl, rfl, rfl, ?_, fun hn => ⟨fun t ht => ?_, ?_⟩⟩
    · rintro v hv rfl
      refine ⟨fun ht hp => ?_, fun t ht => ?_, ?_⟩
      · exact (image_of_no_tokens i.tender ht hp).trans (by rw [hv]; rfl)
      · exact (image_of_tokens r i.tender ht).trans (by rw [hv]; rfl)
      · simp only [WorkingValues.marker, WorkingValues.increments, hv]
    · exact (image_of_tokens r i.tender ht).trans (by rw [hn]; rfl)
    · simp only [WorkingValues.marker, WorkingValues.increments, hn]

end Sys2Proof.Machine
end

section
/-! Proofs: the scrubber's steps and its reads (R111, R149 to R152, R155 to R157). -/
namespace Sys2Proof.Machine

open Sys2Proof

/-! ### A step -/

theorem scrubberRuns_iff (s : State) :
    s.scrubberRuns = true ↔ s.office = .ready ∧ s.supply = .mains ∧ s.store.scrubber.reading = false := by
  simp [State.scrubberRuns, and_assoc]

theorem exec_scrubberStep_of_runs {s : State} (h : s.scrubberRuns = true) : exec .scrubberStep s = .next s.visitRow :=
  congrArg Host.Outcome.next (if_pos h)

theorem exec_scrubberStep_of_rests {s : State} (h : ¬ s.scrubberRuns = true) : exec .scrubberStep s = .next s :=
  congrArg Host.Outcome.next (if_neg h)

/-- A meter row that is not in condition RECORD, or is in the damaged set, is passed over. -/
theorem visitRow_of_unread {s : State} {n : Nat} (hp : s.store.scrubber.position = .meter n)
    (h : s.store.condition n ≠ .record ∨ n ∈ s.store.damaged) : s.visitRow = s.advanceScrubber := by
  have unread : ¬ (s.store.condition n = .record ∧ s.store.damaged.contains n = false) := fun ⟨hr, hd⟩ =>
    h.elim (· hr) (by simpa using hd)
  simp only [State.visitRow, hp, if_neg unread]

/-- Every other indexed row has its meter claimed, unless an engine names it (R111). -/
theorem visitRow_of_record {s : State} {n : Nat} {m : MeterNumber} (hp : s.store.scrubber.position = .meter n)
    (hr : s.store.condition n = .record) (hd : n ∉ s.store.damaged) (hm : s.store.meterAt n = some m) :
    s.visitRow = if s.locks.heldByEngine m then s.advanceScrubber
      else { s with locks := { s.locks with scrubber := some m } }.placeScrub (.meter n) := by
  have read : s.store.condition n = .record ∧ s.store.damaged.contains n = false := ⟨hr, by simpa using hd⟩
  simp only [State.visitRow, hp, if_pos read, State.scrubMeter, hm]

/-- A row of the office-row phase is read with no claim (R157). -/
theorem visitRow_of_plain {s : State} {id : RowId} (hp : s.store.scrubber.position = id) (h : ∀ n, id ≠ .meter n) :
    s.visitRow = s.placeScrub id := by
  cases id with
  | meter n => exact absurd rfl (h n)
  | _ => simp only [State.visitRow, hp]

/-! ### A read -/

theorem exec_scrubberReadDone {s : State} {id : RowId} (d : Decay) (hc : s.current = some (.scrub id)) :
    exec (.scrubberReadDone d) s = .next (s.scrubbed id d) := by
  show execScrubberReadDone d s = _
  simp only [execScrubberReadDone, hc]

/-- The read of a meter row that is in condition RECORD has its findings take effect and its meter released. -/
theorem scrubbed_of_record {s : State} {n : Nat} (d : Decay) (hr : s.store.condition n = .record) :
    s.scrubbed (.meter n) d
      = { s.readRecordRow n d with locks := { s.locks with scrubber := none } }.finishOp.advanceScrubber := by
  simp only [State.scrubbed, State.scrubFindings, if_pos hr, readRecordRow_locks]

/-- The read of any other row puts the office in FAULT when a word is lost (R152). -/
theorem scrubbed_of_plain {s : State} {id : RowId} (d : Decay) (h : ∀ n, id ≠ .meter n) :
    s.scrubbed id d = (s.readOrFault id d true).finishOp.advanceScrubber := by
  cases id with
  | meter n => exact absurd rfl (h n)
  | _ => rfl

/-! ### The order of the rows -/

theorem nextPosition_meter {n : Nat} (h : n < 16383) : nextPosition (.meter n) = (.meter (n + 1), false) :=
  if_pos h

/-- Settles O56: a step by whether the scrubber runs and by the row at its position, then a read's completion by the kind of
its row. -/
theorem scrubberVisitsEveryRow : Obligations.ScrubberVisitsEveryRow := by
  refine ⟨fun s => ⟨fun rests => ?_, fun ready mains unread => ?_⟩, fun n d s hc hr => ?_, ?_,
    fun n hn => nextPosition_meter hn, rfl, fun s => rfl⟩
  · refine exec_scrubberStep_of_rests fun runs => ?_
    obtain ⟨ready, mains, unread⟩ := (scrubberRuns_iff s).1 runs
    simp [ready, mains, unread] at rests
  · rw [exec_scrubberStep_of_runs ((scrubberRuns_iff s).2 ⟨ready, mains, unread⟩)]
    refine ⟨fun n hp => ⟨fun h => ?_, fun m hr hd hm => ⟨fun held => ?_, fun ha hb => ?_⟩⟩, fun id hp h => ?_⟩
    · rw [visitRow_of_unread hp h]
    · rw [visitRow_of_record hp hr hd hm, if_pos ((LockTable.heldByEngine_iff _ _).2 held)]
    · have unheld : ¬ s.locks.heldByEngine m = true := fun held => ((LockTable.heldByEngine_iff _ _).1 held).elim ha hb
      rw [visitRow_of_record hp hr hd hm, if_neg unheld]
      rfl
    · rw [visitRow_of_plain hp h]
      rfl
  · rw [exec_scrubberReadDone d hc, scrubbed_of_record d hr]
  · rintro id d s t w hc h rfl rfl
    rw [exec_scrubberReadDone d hc, scrubbed_of_plain d h]
    by_cases lost : 0 < ((s.memory.rot id).after d).lost
    · rw [readOrFault_of_lost true (rowLost_eq_true lost), if_pos lost]
      rfl
    · rw [readOrFault_of_read true (rowLost_eq_false (Nat.eq_zero_of_not_pos lost)), if_neg lost]
      rfl

end Sys2Proof.Machine
end

section
/-! Proofs: the store's list of operations and the office row that a write forms (R128, R148). -/
namespace Sys2Proof.Machine

open Sys2Proof

theorem takeOp_current (s : State) (op : RowOp) : (s.takeOp op).current = some op := by
  have operations := takeOp_ops s op
  obtain ⟨t, ht⟩ := Option.ne_none_iff_exists'.1 (takeOp_inProgress s op)
  simp only [Store.operations, ht] at operations
  simpa [State.current, ht] using (List.cons.inj operations).1

/-- A store that completes its operation goes on as an idle store does that the first of the list reaches (R148). -/
theorem finishOp_eq_place {s : State} {op : RowOp} {rest : List RowOp} (h : s.store.waiting = op :: rest) :
    s.finishOp = { s with store := { s.store with inProgress := none, waiting := rest } }.place op := by
  rw [← finishOp_forgets, finishOp_of_waiting s.rested op rest h, place_of_rest _ op rfl]
  rfl

/-- Settles O31: an arrival by whether the store is idle, a completion by whether its list is empty, and the office row by the
kind of its write. -/
theorem storeWorksInOrderOfArrival : Obligations.StoreWorksInOrderOfArrival := by
  refine fun s => ⟨fun op => ⟨fun idle => ?_, fun busy => ?_, finishOp_of_alone s, fun rest listed => ?_⟩, ?_⟩
  · rw [place_of_rest s op idle]
    exact ⟨takeOp_current s op, takeOp_waiting s op, takeOp_frame s op⟩
  · obtain ⟨t, ht⟩ := Option.ne_none_iff_exists'.1 busy
    exact place_of_busy s op t ht
  · refine ⟨?_, ?_, finishOp_frame s, finishOp_eq_place listed⟩ <;> rw [finishOp_of_waiting s op rest listed]
    · exact takeOp_current _ op
    · exact takeOp_waiting _ op
  · rintro w row idle rfl
    rw [place_of_rest s _ idle]
    cases w <;> rfl

end Sys2Proof.Machine
end

section
/-! Proofs: vending authority, the trading calendar and the office's settings (R129, R130, R133, R136, R139, R141, R142, R154,
R182, R183). -/
namespace Sys2Proof.Machine

open Sys2Proof

/-! ### Writes of the office row -/

theorem current_of_inProgress {s : State} {t : TakenOp} (h : s.store.inProgress = some t) : s.current = some t.op := by
  rw [State.current, h]
  rfl

/-- The completion of an office-row write leaves the row that was formed when the store took it (R128). -/
theorem officeWritten_eq {s : State} {op : RowOp} {row : OfficeRow} {n : Option Nat}
    (h : s.store.inProgress = some ⟨op, some row, n⟩) : s.officeWritten = { s with memory := s.memory.writeOffice row } := by
  simp only [State.officeWritten, State.formedRow, h, Option.getD_some]

/-! ### GRANT -/

/-- A number read in a range is not below it. -/
theorem readRange_ge {width lo hi n : Nat} {bs rest : List Byte} (h : readRange width lo hi bs = some (n, rest)) : lo ≤ n := by
  unfold readRange at h
  split at h
  · split at h
    · rename_i within
      cases h
      exact within.1
    · cases h
  · cases h

/-- A grant's office id is never the factory's (R182). -/
theorem decodeGrant_officeId {body : List Byte} {f : GrantFields} (h : decodeGrant body = some f) : f.officeId ≠ 0 := by
  simp only [decodeGrant, Option.bind_eq_bind, Option.bind_eq_some_iff, readEnd, Option.ite_none_right_eq_some,
    Option.some.injEq] at h
  obtain ⟨_, _, ⟨office, _⟩, read, _, _, _, _, _, _, _, rfl⟩ := h
  exact Nat.one_le_iff_ne_zero.1 (readRange_ge read)

/-- A GRANT that has been taken: the checks of its fields in their order, then its verification (R129). -/
theorem working_grantRequest (s : State) (tag : Tag) (body : List Byte) :
    (s.working .grant 0 tag).grantRequest body = match decodeGrant body with
      | none => s.replied .grant 0 tag { s.lane 0 with idle := 0 } .badField .empty
      | some f =>
        if f.officeId ≠ s.settings.officeId then s.replied .grant 0 tag { s.lane 0 with idle := 0 } .badField .empty
        else if f.serial ≤ s.authority.lastSerial then
          s.replied .grant 0 tag { s.lane 0 with idle := 0 } .staleGrant .empty
        else { s.working .grant 0 tag with cipher := s.cipher.request (.grant f) } := by
  unfold State.grantRequest
  cases decodeGrant body with
  | none => exact working_answer s .grant 0 tag .badField rfl
  | some f =>
    simp only [working_answer s .grant 0 tag .badField rfl, working_answer s .grant 0 tag .staleGrant rfl, requestCipher_eq]
    rfl

/-- Settles O52: receipt by the fields, the verification by its two checks, and the write's completion. -/
theorem grantAnswers : Obligations.GrantAnswers := by
  refine ⟨fun tag body s ht => ?_, ?_, fun amount serial row lane h overlap s hp he => ?_⟩
  · have taken : exec (.grant 0 tag body) s = .next ((s.working .grant 0 tag).grantRequest body) :=
      congrArg Host.Outcome.next (takeSupervisor_of_takes s .grant tag _ ht)
    rw [taken, working_grantRequest]
    refine ⟨rfl, fun factory => congrArg Host.Outcome.next ?_⟩
    cases hd : decodeGrant body with
    | none => rfl
    | some f => exact if_pos (factory ▸ decodeGrant_officeId hd)
  · rintro f lane h overlap s t hb he rfl
    have answered : ∀ code, replyCharge code = 0 →
        s.completeCipher.answer code = s.completeCipher.completed lane h overlap code .empty :=
      fun code => respond_of_working s.completeCipher lane h overlap code .empty he
    show execGrantVerified s = _
    simp only [execGrantVerified, hb, State.grantVerified, answered .badAuth rfl, answered .badField rfl]
    rfl
  · show execGrantWriteDone s = _
    simp only [execGrantWriteDone, current_of_inProgress hp, State.grantWritten, officeWritten_eq hp]
    exact congrArg Host.Outcome.next (finishOp_respond _ lane h overlap _ _ (by exact he) rfl)

/-! ### CLOSE_DAY and CLOSE_MONTH -/

theorem settleMinute_of_early {s : State} (h : s.authority.prescaler < 60) : s.settleMinute = s :=
  if_neg (by simpa [Authority.minuteDue] using h)

/-- Settles O53: each request by the top of its period, and the completions of the three writes. -/
theorem periodsClose : Obligations.PeriodsClose := by
  refine ⟨fun tag s ht => ⟨?_, ?_⟩, fun row lane h overlap s he => ⟨fun hp early => ?_, fun hp => ?_⟩, fun row s hp => ?_⟩
  · show Host.Outcome.next _ = _
    rw [takeSupervisor_of_takes s _ tag _ ht, ← working_answer s .closeDay 0 tag .dayLimit rfl]
    rfl
  · show Host.Outcome.next _ = _
    rw [takeSupervisor_of_takes s _ tag _ ht, ← working_answer s .closeMonth 0 tag .monthLimit rfl]
    rfl
  · show execCloseDayWriteDone s = _
    simp only [execCloseDayWriteDone, current_of_inProgress hp, State.dayClosed, settleMinute_of_early early,
      officeWritten_eq hp]
    exact congrArg Host.Outcome.next (finishOp_respond _ lane h overlap _ _ (by exact he) rfl)
  · show execCloseMonthWriteDone s = _
    simp only [execCloseMonthWriteDone, current_of_inProgress hp, State.monthClosed, officeWritten_eq hp]
    exact congrArg Host.Outcome.next (finishOp_respond _ lane h overlap _ _ (by exact he) rfl)
  · show execDayAgeWriteDone s = _
    simp only [execDayAgeWriteDone, current_of_inProgress hp, officeWritten_eq hp]

/-! ### SET_OFFICE and SET_MEMORY_ALARM -/

theorem overdueDue_iff (s : State) :
    s.overdueDue = true ↔ s.authority.overdue = false ∧ s.settings.dayLimit * 60 ≤ s.authority.dayAge := by
  simp [State.overdueDue]

/-- The overdue rule outside a minute step (R142). -/
theorem checkOverdue_eq (s : State) :
    s.checkOverdue = if s.authority.overdue = false ∧ s.settings.dayLimit * 60 ≤ s.authority.dayAge then
        { s with
          authority := { s.authority with overdue := true }
          events := { s.events with dayOverdue := true } }.place (.office .dayAge)
      else s := by
  simp only [State.checkOverdue, overdueDue_iff]
  rfl

/-- The overdue rule leaves available authority as it was. -/
theorem checkOverdue_available (s : State) : s.checkOverdue.authority.available = s.authority.available := by
  unfold State.checkOverdue
  split
  · rw [place_authority]
    rfl
  · rfl

/-- The low-mark rule (R133). -/
theorem noteAuthority_flag (before s : State) :
    before.noteAuthority s = { s with events := { s.events with authorityLow := s.events.authorityLow
      || (before.settings.lowMark ≤ before.authority.available && s.authority.available < s.settings.lowMark) } } := by
  unfold State.noteAuthority
  split
  · rename_i fell
    obtain ⟨above, below⟩ := fell
    simp [State.raiseAuthorityLow, Nat.not_lt.1 above, below]
  · rename_i stands
    have unset : (decide (before.settings.lowMark ≤ before.authority.available)
        && decide (s.authority.available < s.settings.lowMark)) = false := by
      simpa using stands
    rw [unset, Bool.or_false]

/-- The settings that a SET_OFFICE hands out, with R142 where the day limit changed and R133 (R183). -/
theorem settingsWritten_eq {s t u : State} (st : OfficeSettings) {lane : LaneId} {h : Header} {overlap : Bool}
    (he : s.exchange = .working lane h overlap) (ht : t = { s.officeWritten with settings := st }.finishOp)
    (hu : u = if st.dayLimit ≠ s.settings.dayLimit then t.checkOverdue else t) :
    s.settingsWritten st = { u with events := { u.events with authorityLow := u.events.authorityLow
      || (s.settings.lowMark ≤ s.authority.available && s.authority.available < st.lowMark) } }.completed lane h overlap .done
        (.settings st) := by
  have authority : t.authority = s.authority := by rw [ht, finishOp_authority]; rfl
  have exchange : u.exchange = .working lane h overlap := by
    rw [hu]
    split <;> simpa [ht] using he
  have settings : u.settings = st := by
    rw [hu]
    split <;> simp [ht]
  have available : u.authority.available = s.authority.available := by
    rw [hu, ← authority]
    split
    · exact checkOverdue_available t
    · rfl
  have written : s.settingsWritten st = (s.noteAuthority u).respond .done (.settings st) := by
    rw [hu, ht]
    rfl
  rw [written, noteAuthority_flag, available, settings]
  exact respond_of_working _ lane h overlap _ _ exchange rfl

/-- Settles O54: the two requests by their fields, and the completions of their writes. -/
theorem officeSettingsTakeEffect : Obligations.OfficeSettingsTakeEffect := by
  refine ⟨fun tag body s ht => ⟨?_, ?_⟩, fun row lane h overlap s he => ⟨?_, fun exponent count hp => ?_⟩⟩
  · show Host.Outcome.next _ = _
    rw [takeSupervisor_of_takes s _ tag _ ht, State.setOfficeRequest]
    cases decodeSetOffice body with
    | none => exact congrArg Host.Outcome.next (working_answer s .setOffice 0 tag .badField rfl)
    | some st =>
      simp only [working_answer s .setOffice 0 tag .badField rfl]
      rfl
  · show Host.Outcome.next _ = _
    rw [takeSupervisor_of_takes s _ tag _ ht, State.setAlarmRequest]
    cases decodeSetMemoryAlarm body with
    | none => exact congrArg Host.Outcome.next (working_answer s .setMemoryAlarm 0 tag .badField rfl)
    | some p => rfl
  · rintro st t u hp ht hu
    have written : t = { s.officeWritten with settings := st }.finishOp := by rw [ht, officeWritten_eq hp]
    show execSetOfficeWriteDone s = _
    simp only [execSetOfficeWriteDone, current_of_inProgress hp]
    refine congrArg Host.Outcome.next (settingsWritten_eq st he written ?_)
    have authority : t.authority = s.authority := by rw [ht, finishOp_authority]
    have events : t.events = s.events := by rw [ht, finishOp_events]
    have settings : t.settings = st := by rw [ht, finishOp_settings]
    rw [hu, checkOverdue_eq, authority, events, settings, ← ite_and]
  · show execMemoryAlarmWriteDone s = _
    simp only [execMemoryAlarmWriteDone, current_of_inProgress hp, State.alarmWritten, officeWritten_eq hp]
    exact congrArg Host.Outcome.next (finishOp_respond _ lane h overlap _ _ (by exact he) rfl)

end Sys2Proof.Machine
end

section
/-! Proofs: the scan of start-up and the office becoming READY (R133, R142, R144, R149 to R151, R169 to R171). -/
namespace Sys2Proof.Machine

open Sys2Proof

/-! ### A row made an orphan -/

theorem listOrphan_of_listed {t : Store} {n : Nat} (h : n ∈ t.orphans) : t.listOrphan n = t :=
  if_pos (List.contains_iff_mem.2 h)

theorem listOrphan_of_unlisted {t : Store} {n : Nat} (h : n ∉ t.orphans) :
    t.listOrphan n = if t.orphans.length < 32 then { t with orphans := t.orphans ++ [n] } else { t with overflow := true } :=
  if_neg (mt List.contains_iff_mem.1 h)

/-- The list and its overflow mark are all that changes. -/
theorem listOrphan_eq (t : Store) (n : Nat) : t.listOrphan n = { t with
    orphans := (t.listOrphan n).orphans
    overflow := (t.listOrphan n).overflow } := by
  unfold Store.listOrphan
  split
  · rfl
  · split <;> rfl

theorem listOrphan_orphans (t : Store) (n : Nat) : (t.listOrphan n).orphans
    = if n ∈ t.orphans ∨ 32 ≤ t.orphans.length then t.orphans else t.orphans ++ [n] := by
  by_cases listed : n ∈ t.orphans
  · simp only [listOrphan_of_listed listed, listed, true_or, if_true]
  · by_cases full : 32 ≤ t.orphans.length
    · simp only [listOrphan_of_unlisted listed, if_neg (Nat.not_lt.2 full), full, or_true, if_true]
    · simp only [listOrphan_of_unlisted listed, if_pos (Nat.not_le.1 full), listed, full, or_self, if_false]

theorem listOrphan_overflow (t : Store) (n : Nat) : (t.listOrphan n).overflow = true
    ↔ t.overflow = true ∨ n ∉ t.orphans ∧ 32 ≤ t.orphans.length := by
  by_cases listed : n ∈ t.orphans
  · simp only [listOrphan_of_listed listed, listed, not_true, false_and, or_false]
  · by_cases full : 32 ≤ t.orphans.length
    · simp only [listOrphan_of_unlisted listed, if_neg (Nat.not_lt.2 full), listed, full, not_false_iff, and_self, or_true]
    · simp only [listOrphan_of_unlisted listed, if_pos (Nat.not_le.1 full), full, and_false, or_false]

theorem makeOrphan_damaged (s : State) (n j : Nat) :
    j ∈ (s.makeOrphan n).store.damaged ↔ j ∈ s.store.damaged ∧ j ≠ n := by
  have damaged : (s.makeOrphan n).store.damaged = s.store.damaged.filter (· ≠ n) :=
    congrArg Store.damaged (listOrphan_eq _ n)
  rw [damaged, mem_filter_ne]

theorem makeOrphan_errorCount (s : State) (n : Nat) : (s.makeOrphan n).store.errorCount = s.store.errorCount := by
  show (Store.listOrphan _ n).errorCount = _
  rw [listOrphan_eq]
  rfl

/-- An index entry to another row is found as before when a row's own entries are taken out. -/
theorem sparseFind_filter_of_ne {t : Sparse Nat} {m k n : Nat} (h : sparseFind t m = some k) (hk : k ≠ n) :
    sparseFind (t.filter fun e => e.2 ≠ n) m = some k := by
  induction t with
  | nil => cases h
  | cons e rest ih =>
    obtain ⟨a, b⟩ := e
    by_cases ha : a = m
    · obtain rfl : b = k := by simpa [sparseFind, ha] using h
      rw [List.filter_cons_of_pos (by simpa using hk)]
      exact if_pos ha
    · have found := ih (by simpa [sparseFind, ha] using h)
      by_cases hb : b = n
      · rwa [List.filter_cons_of_neg (by simpa using hb)]
      · rw [List.filter_cons_of_pos (by simpa using hb)]
        exact (if_neg ha).trans found

/-- A row made an orphan leaves the index entry of every other row. -/
theorem makeOrphan_rowOf_of_ne {s : State} {n k : Nat} {m : MeterNumber} (h : s.store.rowOf m = some k) (hk : k ≠ n) :
    (s.makeOrphan n).store.rowOf m = some k :=
  (rowOf_congr (listOrphan_index _ n).1 m).trans (sparseFind_filter_of_ne h hk)

/-- Row `j` is an orphan of `x` that was none of `s`: its condition, the flag ROW_DAMAGED, and its place on the orphan list or
the overflow mark (R151, R170). -/
def State.NewOrphan (s x : State) (j : Nat) : Prop :=
  x.store.condition j = .orphan ∧ x.events = { s.events with rowDamaged := true }
    ∧ x.store.orphans = (if j ∈ s.store.orphans ∨ 32 ≤ s.store.orphans.length then s.store.orphans
      else s.store.orphans ++ [j])
    ∧ (x.store.overflow = true ↔ s.store.overflow = true ∨ j ∉ s.store.orphans ∧ 32 ≤ s.store.orphans.length)

theorem makeOrphan_newOrphan (s : State) (n : Nat) : s.NewOrphan (s.makeOrphan n) n :=
  ⟨(makeOrphan_condition s n n).trans (if_pos rfl), rfl, listOrphan_orphans _ n, listOrphan_overflow _ n⟩

/-! ### A row that joins the damaged set -/

theorem markDamaged_damaged (s : State) (n j : Nat) :
    j ∈ (s.markDamaged n).store.damaged ↔ j ∈ s.store.damaged ∨ j = n := by
  unfold State.markDamaged
  split
  · rename_i marked
    have member : n ∈ s.store.damaged := List.contains_iff_mem.1 marked
    exact ⟨.inl, fun h => h.elim id fun e => e ▸ member⟩
  · exact (mem_insertRising n j s.store.damaged).trans or_comm

theorem markDamaged_events (s : State) (n : Nat) :
    (s.markDamaged n).events = if n ∉ s.store.damaged then { s.events with rowDamaged := true } else s.events := by
  unfold State.markDamaged
  by_cases marked : n ∈ s.store.damaged
  · rw [if_pos (List.contains_iff_mem.2 marked), if_neg (not_not.2 marked)]
  · rw [if_neg (mt List.contains_iff_mem.1 marked), if_pos marked]
    rfl

/-- The damaged set and the flag are all that a row's damage changes. -/
theorem markDamaged_eq (s : State) (n : Nat) : s.markDamaged n = { s with
    events := (s.markDamaged n).events
    store := { s.store with damaged := (s.markDamaged n).store.damaged } } := by
  unfold State.markDamaged
  split <;> rfl

/-! ### A scanned row that takes its meter's index entry -/

/-- The tables with a scanned row in condition RECORD and indexed (R169). -/
def State.indexed (s : State) (n : Nat) (m : MeterNumber) : State :=
  { s with store := (s.store.setCondition n .record).indexMeter m n }

theorem indexScanned_eq (s : State) (n : Nat) (m : MeterNumber) (lost : Bool) :
    s.indexScanned n m lost = if lost then (s.indexed n m).markDamaged n else s.indexed n m := rfl

/-- Beside the two tables, the damaged set and the flag are all that changes. -/
theorem indexScanned_store (s : State) (n : Nat) (m : MeterNumber) (lost : Bool) :
    (s.indexScanned n m lost).store
      = { (s.indexed n m).store with damaged := (s.indexScanned n m lost).store.damaged } := by
  cases lost with
  | false => rfl
  | true => exact congrArg State.store (markDamaged_eq (s.indexed n m) n)

theorem indexScanned_condition_same (s : State) (n : Nat) (m : MeterNumber) (lost : Bool) :
    (s.indexScanned n m lost).store.condition n = .record := by
  rw [indexScanned_store]
  exact setCondition_condition s.store n .record

theorem indexScanned_rowOf (s : State) (n : Nat) (m : MeterNumber) (lost : Bool) :
    (s.indexScanned n m lost).store.rowOf m = some n := by
  rw [indexScanned_store]
  exact (rowOf_indexMeter (s.store.setCondition n .record) m n m).trans (if_pos rfl)

theorem indexScanned_orphans (s : State) (n : Nat) (m : MeterNumber) (lost : Bool) :
    (s.indexScanned n m lost).store.orphans = s.store.orphans := by
  rw [indexScanned_store]
  rfl

theorem indexScanned_overflow (s : State) (n : Nat) (m : MeterNumber) (lost : Bool) :
    (s.indexScanned n m lost).store.overflow = s.store.overflow := by
  rw [indexScanned_store]
  rfl

theorem indexScanned_errorCount (s : State) (n : Nat) (m : MeterNumber) (lost : Bool) :
    (s.indexScanned n m lost).store.errorCount = s.store.errorCount := by
  rw [indexScanned_store]
  rfl

theorem indexScanned_damaged (s : State) (n : Nat) (m : MeterNumber) (lost : Bool) (j : Nat) :
    j ∈ (s.indexScanned n m lost).store.damaged ↔ j ∈ s.store.damaged ∨ lost = true ∧ j = n := by
  cases lost with
  | false => simp [indexScanned_eq, State.indexed, Store.indexMeter, Store.setCondition]
  | true =>
    simp only [true_and]
    exact markDamaged_damaged (s.indexed n m) n j

theorem indexScanned_events (s : State) (n : Nat) (m : MeterNumber) (lost : Bool) : (s.indexScanned n m lost).events
    = if lost = true ∧ n ∉ s.store.damaged then { s.events with rowDamaged := true } else s.events := by
  cases lost with
  | false => rfl
  | true =>
    simp only [true_and]
    exact markDamaged_events (s.indexed n m) n

/-- An orphan made before another row was indexed stands. -/
theorem newOrphan_indexScanned {s x : State} {k n : Nat} (h : s.NewOrphan x k) (hk : k ≠ n) (m : MeterNumber) (lost : Bool) :
    s.NewOrphan (x.indexScanned n m lost) k := by
  obtain ⟨orphan, flag, listed, overflow⟩ := h
  refine ⟨(indexScanned_condition x n m lost k hk).trans orphan, ?_, (indexScanned_orphans x n m lost).trans listed, ?_⟩
  · rw [indexScanned_events, flag, ite_self]
  · rw [indexScanned_overflow, overflow]

/-! ### The findings of a scanned row -/

/-- The words of a row hold an uncorrectable one beside the meter number. -/
def MeterWords.lostWord (w : MeterWords) : Bool :=
  w.sequence == .uncorrectable || 0 < w.body.lost

theorem lostWord_iff (w : MeterWords) : w.lostWord = true ↔ w.sequence = .uncorrectable ∨ 0 < w.body.lost := by
  simp [MeterWords.lostWord]

/-- Of two rows of one meter the later wins with a known sequence that no known sequence of the earlier reaches (R170). -/
theorem laterRowWins_iff (earlier later : Option Nat) :
    laterRowWins earlier later = true ↔ ∃ b, later = some b ∧ ∀ a, earlier = some a → a < b := by
  cases earlier <;> cases later <;> simp [laterRowWins]

/-- The sequence of an earlier row as R170 knows it. -/
theorem knownSequence_eq (r : MeterRow) :
    r.knownSequence = if r.words.sequence = .uncorrectable then none else r.content.map (·.sequence) := by
  simp only [MeterRow.knownSequence, sequenceKnown_iff, ite_not]

section
variable {s : State} {n : Nat}

theorem scanFindings_of_noNumber (d : Decay) (h : (s.wordsAt n d).number = .uncorrectable) :
    s.scanFindings n d = (s.readWords n d).makeOrphan n := by
  simp only [State.scanFindings, h, if_true]

theorem scanFindings_of_free (d : Decay) (h : (s.wordsAt n d).number ≠ .uncorrectable)
    (hc : (s.memory.meterRow n).content = none) :
    s.scanFindings n d = { s.readWords n d with store := (s.readWords n d).store.release n } := by
  simp only [State.scanFindings, h, if_false, hc]
  rfl

theorem scanFindings_of_record {r : MeterRecord} (d : Decay) (h : (s.wordsAt n d).number ≠ .uncorrectable)
    (hc : (s.memory.meterRow n).content = some r) :
    s.scanFindings n d = (s.readWords n d).scanRecord n r (s.wordsAt n d) := by
  simp only [State.scanFindings, h, if_false, hc]

theorem scanRecord_of_new {r : MeterRecord} (w : MeterWords) (h : s.store.rowOf r.meter = none) :
    s.scanRecord n r w = s.indexScanned n r.meter w.lostWord := by
  simp only [State.scanRecord, h]
  rfl

/-- The later row of a pair takes the entry or becomes an orphan (R170). -/
theorem scanRecord_of_pair {r : MeterRecord} {k : Nat} (w : MeterWords) (h : s.store.rowOf r.meter = some k) :
    s.scanRecord n r w =
      if w.sequence ≠ .uncorrectable ∧ ∀ q, (s.memory.meterRow k).knownSequence = some q → q < r.sequence then
        (s.makeOrphan k).indexScanned n r.meter w.lostWord
      else s.makeOrphan n := by
  have wins : laterRowWins (s.memory.meterRow k).knownSequence (if w.sequenceKnown then some r.sequence else none) = true
      ↔ w.sequence ≠ .uncorrectable ∧ ∀ q, (s.memory.meterRow k).knownSequence = some q → q < r.sequence := by
    rw [laterRowWins_iff, ← sequenceKnown_iff]
    cases w.sequenceKnown <;> simp
  simp only [State.scanRecord, h, wins]
  rfl

end

/-- What the read of a scanned row leaves stands after the row is settled, when each way to settle it keeps it. -/
theorem scanFindings_ind {P : State → Prop} {s : State} {n : Nat} {d : Decay} (read : P (s.readWords n d))
    (orphan : ∀ t j, P t → P (t.makeOrphan j)) (free : ∀ t, P t → P { t with store := t.store.release n })
    (index : ∀ t m lost, P t → P (t.indexScanned n m lost)) : P (s.scanFindings n d) := by
  by_cases number : (s.wordsAt n d).number = .uncorrectable
  · rw [scanFindings_of_noNumber d number]
    exact orphan _ n read
  · cases content : (s.memory.meterRow n).content with
    | none =>
      rw [scanFindings_of_free d number content]
      exact free _ read
    | some r =>
      rw [scanFindings_of_record d number content]
      cases row : (s.readWords n d).store.rowOf r.meter with
      | none =>
        rw [scanRecord_of_new _ row]
        exact index _ _ _ read
      | some k =>
        rw [scanRecord_of_pair _ row]
        split
        · exact index _ _ _ (orphan _ k read)
        · exact orphan _ n read

theorem scanFindings_errorCount (s : State) (n : Nat) (d : Decay) :
    (s.scanFindings n d).store.errorCount = min 16777215 (s.store.errorCount + (s.wordsAt n d).corrections) :=
  scanFindings_ind (P := fun t => t.store.errorCount = _) rfl (fun t j => (makeOrphan_errorCount t j).trans)
    (fun _ h => h) (fun t m lost => (indexScanned_errorCount t n m lost).trans)

/-- A read leaves every other meter row as it was (R149). -/
theorem readWords_meterRow_other (s : State) (n : Nat) (d : Decay) {k : Nat} (hk : k ≠ n) :
    (s.readWords n d).memory.meterRow k = s.memory.meterRow k :=
  setMeterRow_meterRow_other s.memory n k _ hk

/-- A row read is sound again unless a word of it is lost (R149). -/
theorem readWords_meterRow (s : State) (n : Nat) (d : Decay) : (s.readWords n d).memory.meterRow n
    = ⟨(s.memory.meterRow n).content, if (s.wordsAt n d).number = .uncorrectable ∨ (s.wordsAt n d).sequence = .uncorrectable
        ∨ 0 < (s.wordsAt n d).body.lost then s.wordsAt n d else {}⟩ :=
  setMeterRow_meterRow s.memory n _

/-! ### READY -/

/-- The day's rule as the office becomes READY: an overdue day sets its flag, and else R142 is applied (R144). -/
theorem enterReady_eq {s u : State} (hu : u = if s.authority.overdue = true then s.readied.raiseDayOverdue else
      s.readied.checkOverdue) :
    s.enterReady = if s.authority.available < s.settings.lowMark then u.raiseAuthorityLow else u := by
  have available : u.authority.available = s.authority.available := by
    rw [hu]
    split
    · rfl
    · exact checkOverdue_available s.readied
  have settings : u.settings = s.settings := by
    rw [hu]
    split
    · rfl
    · exact checkOverdue_settings s.readied
  rw [← available, ← settings, hu]
  rfl

theorem exec_scanRowRead {s : State} {n : Nat} (d : Decay) (hc : s.current = some (.scan n)) :
    exec (.scanRowRead d) s = .next (s.rowScanned n d) := by
  show execScanRowRead d s = _
  simp only [execScanRowRead, hc]

/-- Settles O58: the row by its findings and by its meter's index entry, then the next row or READY. -/
theorem scanSettlesEveryRow : Obligations.ScanSettlesEveryRow := by
  refine ⟨?_, ?_⟩
  · rintro n d s x w hw rfl
    obtain rfl : w = s.wordsAt n d := hw
    dsimp only
    rw [scanFindings_memory]
    refine ⟨scanFindings_errorCount s n d, rfl, fun k => readWords_meterRow_other s n d, readWords_meterRow s n d,
      fun number => ?_, fun number => ⟨fun content => ?_, fun r content => ?_⟩⟩
    · rw [scanFindings_of_noNumber d number]
      exact ⟨makeOrphan_newOrphan (s.readWords n d) n, makeOrphan_damaged (s.readWords n d) n⟩
    · rw [scanFindings_of_free d number content]
      exact ⟨setCondition_condition (s.readWords n d).store n .free, (mem_insertRising n n _).2 (.inl rfl), rfl, rfl, rfl, rfl⟩
    · simp only [scanFindings_of_record d number content, ← lostWord_iff]
      refine ⟨fun row => ?_, fun k row hk => ?_⟩
      · rw [scanRecord_of_new (s := s.readWords n d) _ row]
        exact ⟨indexScanned_condition_same .., indexScanned_rowOf .., indexScanned_damaged (s.readWords n d) n r.meter _,
          indexScanned_events (s.readWords n d) n r.meter _, indexScanned_orphans .., indexScanned_overflow ..⟩
      · rw [scanRecord_of_pair (s := s.readWords n d) _ row, readWords_meterRow_other s n d hk, knownSequence_eq]
        refine ⟨fun wins => ?_, fun loses => ?_⟩
        · rw [if_pos wins]
          refine ⟨indexScanned_condition_same .., indexScanned_rowOf ..,
            newOrphan_indexScanned (makeOrphan_newOrphan (s.readWords n d) k) hk r.meter _, fun j => ?_⟩
          rw [indexScanned_damaged, makeOrphan_damaged]
          rfl
        · rw [if_neg loses]
          exact ⟨makeOrphan_newOrphan (s.readWords n d) n, makeOrphan_rowOf_of_ne (s := s.readWords n d) row hk,
            (makeOrphan_condition (s.readWords n d) n k).trans (if_neg hk), makeOrphan_damaged (s.readWords n d) n⟩
  · rintro n d s t u hc rfl
    rw [exec_scanRowRead d hc]
    refine ⟨fun more => congrArg Host.Outcome.next (if_pos more), ?_⟩
    rintro rfl hu
    refine congrArg Host.Outcome.next (enterReady_eq ?_)
    rw [hu, checkOverdue_eq]
    split
    · rfl
    · rename_i clear
      exact if_congr (and_iff_right (Bool.eq_false_iff.2 clear)).symm rfl rfl

end Sys2Proof.Machine
end

section
/-! Proofs: what a read of a meter row in condition RECORD does by its findings (R149 to R151, R153). -/
namespace Sys2Proof.Machine

open Sys2Proof

/-! ### The read by its findings -/

section
variable {s : State} {n : Nat}

/-- An uncorrectable meter number makes the row an orphan (R151). -/
theorem readRecordRow_of_noNumber (d : Decay) (h : (s.wordsAt n d).number = .uncorrectable) :
    s.readRecordRow n d = (s.readWords n d).makeOrphan n := by
  simp only [State.readRecordRow, State.reading, h, if_true]

/-- Another uncorrectable word damages the row (R150). -/
theorem readRecordRow_of_lostWord (d : Decay) (number : (s.wordsAt n d).number ≠ .uncorrectable)
    (h : (s.wordsAt n d).sequence = .uncorrectable ∨ 0 < (s.wordsAt n d).body.lost) :
    s.readRecordRow n d = (s.readWords n d).markDamaged n := by
  simp only [State.readRecordRow, State.reading, number, h, if_false, if_true]

/-- With nothing uncorrectable the read counts and rewrites corrected words (R149). -/
theorem readRecordRow_of_sound (d : Decay) (number : (s.wordsAt n d).number ≠ .uncorrectable)
    (h : ¬ ((s.wordsAt n d).sequence = .uncorrectable ∨ 0 < (s.wordsAt n d).body.lost)) :
    s.readRecordRow n d = s.readWords n d := by
  simp only [State.readRecordRow, State.reading, number, h, if_false]
  cases (s.memory.meterRow n).content <;> rfl

/-- What the read of the words leaves stands after the findings take effect, when an orphan made and a row damaged keep it. -/
theorem readRecordRow_ind {P : State → Prop} {d : Decay} (read : P (s.readWords n d))
    (orphan : ∀ t, P t → P (t.makeOrphan n)) (damaged : ∀ t, P t → P (t.markDamaged n)) : P (s.readRecordRow n d) := by
  unfold State.readRecordRow
  split
  · exact orphan _ read
  · exact damaged _ read
  · exact read

end

/-! ### What every read does -/

/-- The findings of a read row write nothing beside the read itself. -/
theorem readRecordRow_memory (s : State) (n : Nat) (d : Decay) : (s.readRecordRow n d).memory = (s.readWords n d).memory :=
  readRecordRow_ind (P := fun t => t.memory = _) rfl (fun t => (makeOrphan_memory t n).trans)
    (fun t => (markDamaged_memory t n).trans)

/-- The row read keeps its content, and its findings too when a word of it is lost (R149 to R151). -/
theorem readRecordRow_meterRow (s : State) (n : Nat) (d : Decay) : (s.readRecordRow n d).memory.meterRow n
    = ⟨(s.memory.meterRow n).content, if (s.wordsAt n d).number = .uncorrectable ∨ (s.wordsAt n d).sequence = .uncorrectable
        ∨ 0 < (s.wordsAt n d).body.lost then s.wordsAt n d else {}⟩ := by
  rw [readRecordRow_memory, readWords_meterRow]

theorem markDamaged_errorCount (s : State) (n : Nat) : (s.markDamaged n).store.errorCount = s.store.errorCount :=
  congrArg (fun t => t.store.errorCount) (markDamaged_eq s n)

theorem readRecordRow_errorCount (s : State) (n : Nat) (d : Decay) :
    (s.readRecordRow n d).store.errorCount = min 16777215 (s.store.errorCount + (s.wordsAt n d).corrections) :=
  readRecordRow_ind (P := fun t => t.store.errorCount = _) rfl (fun t => (makeOrphan_errorCount t n).trans)
    (fun t => (markDamaged_errorCount t n).trans)

/-! ### A row out of the index -/

/-- No index entry points to an orphan (R151). -/
theorem makeOrphan_index (s : State) (n : Nat) : ∀ e ∈ (s.makeOrphan n).store.index, e.2 ≠ n := by
  have index : (s.makeOrphan n).store.index = s.store.index.filter fun e => e.2 ≠ n := (listOrphan_index _ n).1
  rw [index]
  exact fun e he => of_decide_eq_true (List.mem_filter.1 he).2

/-- A new orphan is on the orphan list, unless the overflow mark tells of it (R151). -/
theorem State.NewOrphan.listed {s x : State} {j : Nat} (h : s.NewOrphan x j) :
    j ∈ x.store.orphans ∨ x.store.overflow = true := by
  obtain ⟨-, -, orphans, overflow⟩ := h
  rw [orphans, overflow]
  by_cases before : j ∈ s.store.orphans
  · rw [if_pos (.inl before)]
    exact .inl before
  · by_cases full : 32 ≤ s.store.orphans.length
    · exact .inr (.inr ⟨before, full⟩)
    · rw [if_neg (not_or.2 ⟨before, full⟩)]
      exact .inl List.mem_concat_self

/-! ### A read -/

/-- Settles O26: what every read writes and counts, then the effects by which word is uncorrectable. -/
theorem readsTakeTheirFindings : Obligations.ReadsTakeTheirFindings := by
  rintro n d s w t rfl rfl
  have memory := readRecordRow_memory s n d
  have content := congrArg MeterRow.content (readRecordRow_meterRow s n d)
  have words := congrArg MeterRow.words (readRecordRow_meterRow s n d)
  refine ⟨readRecordRow_errorCount s n d, fun k hk => ?_, ?_, content, fun number sequence body => ?_,
    fun number lost => ?_, fun number => ?_⟩
  · rw [memory, readWords_meterRow_other s n d hk]
  · rw [memory]
    rfl
  · have sound : ¬ ((s.wordsAt n d).sequence = .uncorrectable ∨ 0 < (s.wordsAt n d).body.lost) :=
      not_or.2 ⟨sequence, body.not_gt⟩
    refine ⟨words.trans (if_neg (not_or.2 ⟨number, sound⟩)), ?_⟩
    rw [readRecordRow_of_sound d number sound]
    rfl
  · refine ⟨words.trans (if_pos (.inr lost)), ?_⟩
    rw [readRecordRow_of_lostWord d number lost]
    refine ⟨(markDamaged_damaged _ n n).2 (.inr rfl), congrArg (·.store.index) (markDamaged_eq (s.readWords n d) n),
      markDamaged_condition (s.readWords n d) n n, ?_⟩
    exact (markDamaged_events (s.readWords n d) n).trans (ite_not ..)
  · refine ⟨words.trans (if_pos (.inl number)), ?_⟩
    rw [readRecordRow_of_noNumber d number]
    have new := makeOrphan_newOrphan (s.readWords n d) n
    have listed := new.listed
    obtain ⟨orphan, flag, -⟩ := new
    exact ⟨orphan, fun still => ((makeOrphan_damaged _ n n).1 still).2 rfl, makeOrphan_index _ n, listed, flag⟩

end Sys2Proof.Machine
end

section
/-! Proofs: the model's queue, and the command that a step runs (R148, R174). -/
namespace Sys2Proof.Machine

open Sys2Proof

theorem step_of_queued {s : State} {c : Instr} {rest : List Instr} (h : s.pending = c :: rest) :
    step s = exec c { s with pending := rest } := by
  simp only [step, h]

theorem step_of_idle {s : State} (h : s.pending = []) : step s = .next s := by
  simp only [step, h]

/-- Settles O1: a step by whether a command is queued. -/
theorem stepRunsFrontCommand : Obligations.StepRunsFrontCommand :=
  ⟨fun _ _ _ => step_of_queued, fun _ => step_of_idle⟩

end Sys2Proof.Machine
end

section
/-! Proofs: the frames that the link does not take (R165, R174, R175). -/
namespace Sys2Proof.Machine

open Sys2Proof

/-- A command that brings the link a frame: a request, or the bytes of a selection that hold a start byte (R174). -/
inductive BringsFrame : Instr → Prop
  | request (k : Kind) (lane : LaneId) (tag : Tag) (body : List Byte) : BringsFrame (commandOf k lane tag body)
  | badFrame {bytes : List Byte} (h : carriesFrame bytes = true) : BringsFrame (.badFrame bytes)
  | discarded {bytes : List Byte} (h : carriesFrame bytes = true) : BringsFrame (.frameDiscarded bytes)

/-- While RESET is held no frame is taken (R165). -/
theorem BringsFrame.exec_of_held {c : Instr} (hc : BringsFrame c) {s : State} (hr : s.resetHeld = true) :
    exec c s = .next s := by
  cases hc with
  | request k lane tag body =>
    obtain ⟨owner, taken⟩ := exec_commandOf k lane tag body
    rw [taken, State.takeFrame, if_pos hr]
  | badFrame =>
    show Host.Outcome.next (s.takeBadFrame _) = _
    rw [State.takeBadFrame, if_pos hr]
  | discarded =>
    show Host.Outcome.next (s.takeDiscarded _) = _
    rw [State.takeDiscarded, hr, Bool.true_or, if_pos rfl]

/-- A frame that arrives while the link is not IDLE is discarded (R175). -/
theorem BringsFrame.exec_of_busy {c : Instr} (hc : BringsFrame c) {s : State} (hr : s.resetHeld = false)
    (hx : s.exchange ≠ .idle) : exec c s = .next s.discardFrame := by
  cases hc with
  | request k lane tag body =>
    obtain ⟨owner, taken⟩ := exec_commandOf k lane tag body
    rw [taken, State.takeFrame, if_neg (Bool.eq_false_iff.1 hr)]
    split
    · exact absurd ‹_› hx
    · rfl
  | badFrame h =>
    show Host.Outcome.next (s.takeBadFrame _) = _
    rw [State.takeBadFrame, if_neg (Bool.eq_false_iff.1 hr), if_pos h]
    split
    · exact absurd ‹_› hx
    · rfl
  | discarded h =>
    show Host.Outcome.next (s.takeDiscarded _) = _
    rw [State.takeDiscarded, hr, h]
    rfl

theorem BringsFrame.exec_of_working {c : Instr} (hc : BringsFrame c) {s : State} (hr : s.resetHeld = false) {lane : LaneId}
    {h : Header} {overlap : Bool} (hx : s.exchange = .working lane h overlap) :
    exec c s = .next { s with exchange := .working lane h true } := by
  rw [hc.exec_of_busy hr (by simp [hx]), State.discardFrame, hx]

theorem BringsFrame.exec_of_replyReady {c : Instr} (hc : BringsFrame c) {s : State} (hr : s.resetHeld = false) {r : Reply}
    (hx : s.exchange = .replyReady r) : exec c s = .next { s with exchange := .replyReady { r with overlap := true } } := by
  rw [hc.exec_of_busy hr (by simp [hx]), State.discardFrame, hx]

/-- Settles O3: RESET held, a reply being formed, and a reply that waits, each for the three ways a frame can come. -/
theorem framesNotTaken : Obligations.FramesNotTaken := by
  intro k lane tag body bytes s carried
  have request := BringsFrame.request k lane tag body
  have badFrame := BringsFrame.badFrame carried
  have discarded := BringsFrame.discarded carried
  refine ⟨fun held => ?_, fun free => ⟨fun l h o working => ?_, fun r ready => ?_⟩⟩
  · exact ⟨request.exec_of_held held, badFrame.exec_of_held held, discarded.exec_of_held held⟩
  · exact ⟨request.exec_of_working free working, badFrame.exec_of_working free working,
      discarded.exec_of_working free working⟩
  · exact ⟨request.exec_of_replyReady free ready, badFrame.exec_of_replyReady free ready,
      discarded.exec_of_replyReady free ready⟩

end Sys2Proof.Machine
end

section
/-! Proofs: the supply monitor and engine B (R103, R104, R162, R163). -/
namespace Sys2Proof.Machine

open Sys2Proof

/-! ### Engine B -/

/-- Engine B at rest (R104). -/
theorem restingEngine_b (p : Supply) : restingEngine .b p = if p = .mains then .idle else .parked := by
  cases p <;> rfl

/-- Engine B at a change of supply state: DISABLED and BUSY stay, any other rests (R104). -/
theorem follow_engineB (s : State) (p : Supply) : s.engines.b.follow p
    = if s.engines.b = .disabled ∨ (s.busyEngine .b).isSome then s.engines.b else if p = .mains then .idle else .parked := by
  unfold State.busyEngine Pair.get
  cases s.engines.b with
  | disabled => rfl
  | busy b => rfl
  | idle => exact restingEngine_b p
  | parked => exact restingEngine_b p

/-! ### The supply state -/

theorem deriveSupply_of_same {s : State} (h : supplyOf s.mainsOk s.pwrWarn = s.supply) : s.deriveSupply = s := by
  rw [State.deriveSupply, if_pos h]

theorem deriveSupply_of_differs {s : State} (h : supplyOf s.mainsOk s.pwrWarn ≠ s.supply) : s.deriveSupply = { s with
    supply := supplyOf s.mainsOk s.pwrWarn
    events := { s.events with supplyChange := true }
    engines := ⟨s.engines.a, s.engines.b.follow (supplyOf s.mainsOk s.pwrWarn)⟩ } := by
  rw [State.deriveSupply, if_neg h]
  rfl

/-- A change of either input derives the supply state with that input's new level (R163). -/
theorem exec_supplyInput {high : Bool} {s t : State} {c : Instr}
    (h : c = .mainsOkChange high ∧ t = { s with mainsOk := high } ∨ c = .pwrWarnChange high ∧ t = { s with pwrWarn := high }) :
    exec c s = .next t.deriveSupply ∧ t.supply = s.supply ∧ t.engines = s.engines := by
  rcases h with ⟨rfl, rfl⟩ | ⟨rfl, rfl⟩ <;> exact ⟨rfl, rfl, rfl⟩

/-! ### ENABLE_ENGINE_B -/

/-- ENABLE_ENGINE_B in a state that takes it. -/
theorem exec_enableEngineB {s : State} (h : s.TakesSupervisor) (tag : Tag) (body : List Byte) :
    exec (.enableEngineB 0 tag body) s = .next ((s.working .enableEngineB 0 tag).enableRequest body) :=
  congrArg Host.Outcome.next (takeSupervisor_of_takes s .enableEngineB tag _ h)

/-- Settles O12: the levels, then a change of an input by whether the supply state differs, then ENABLE_ENGINE_B by whether
engine B is DISABLED. -/
theorem supplyAndEngineB : Obligations.SupplyAndEngineB := by
  refine ⟨⟨rfl, rfl, fun _ => rfl⟩, fun high s c t input => ?_, fun tag s takes => ?_⟩
  · obtain ⟨derived, supply, engines⟩ := exec_supplyInput input
    rw [derived, ← supply]
    refine ⟨fun same => congrArg _ (deriveSupply_of_same same), fun differs => ?_⟩
    rw [deriveSupply_of_differs differs, ← follow_engineB s, engines]
  · rw [exec_enableEngineB takes]
    refine ⟨fun disabled => ?_, fun enabled => ?_⟩
    · have rests : (s.working .enableEngineB 0 tag).enableRequest []
          = ((s.setEngine .b (restingEngine .b s.supply)).working .enableEngineB 0 tag).respond .done (.engineEnabled true) :=
        if_pos disabled
      rw [rests, working_respond _ _ _ _ _ _ rfl, restingEngine_b]
      rfl
    · have stays : (s.working .enableEngineB 0 tag).enableRequest []
          = (s.working .enableEngineB 0 tag).respond .done (.engineEnabled false) :=
        if_neg enabled
      rw [stays, working_respond _ _ _ _ _ _ rfl]

end Sys2Proof.Machine
end

section
/-! Proofs: the requests that the link, or lane 0's admission, turns away (R79, R176, R177). -/
namespace Sys2Proof.Machine

open Sys2Proof

/-! ### A frame on a free link -/

/-- A link that takes a frame: RESET is not held, the link is IDLE, and no TICK has left a step due (R165, R174). -/
structure State.LinkFree (s : State) : Prop where
  free : s.resetHeld = false
  idle : s.exchange = .idle
  settled : s.tickSettled = true

/-- A frame on a free link goes to checks 4 and 5 of R176. -/
theorem State.LinkFree.takeFrame {s : State} (h : s.LinkFree) (k : Kind) (lane : LaneId) (tag : Tag) (owner : State → State) :
    s.takeFrame k lane tag owner = (s.working k lane tag).route k lane owner := by
  simp only [State.takeFrame, h.free, h.idle, settleTick_of_settled s h.settled, Bool.false_eq_true, if_false]
  rfl

theorem working_office (s : State) (k : Kind) (lane : LaneId) (tag : Tag) : (s.working k lane tag).office = s.office := rfl

/-! ### Checks 4 and 5 of R176 -/

section
variable {s : State} {k : Kind} (lane : LaneId) (owner : State → State)

theorem route_of_starting (ho : s.office = .starting) (hk : k ≠ .readStatus) : s.route k lane owner = s.answer .starting :=
  if_pos ⟨ho, hk⟩

theorem route_of_fault (ho : s.office = .fault) (hk : k ≠ .readStatus) : s.route k lane owner = s.answer .fault := by
  rw [State.route, if_neg (by simp [ho]), if_pos ⟨ho, hk⟩]

/-- What passes check 4 goes by check 5: to its owner on a lane that may ask it, else it is refused. -/
theorem route_of_passed (h : s.office = .ready ∨ k = .readStatus) :
    s.route k lane owner = if k.isCounter ∨ lane = 0 then owner s else s.answer .notSupervisor := by
  rw [State.route, if_neg, if_neg]
  · rintro ⟨fault, other⟩
    exact other (h.resolve_left (by simp [fault]))
  · rintro ⟨starting, other⟩
    exact other (h.resolve_left (by simp [starting]))

end

/-! ### Lane 0's admission -/

/-- Every supervisor request but READ_STATUS and OPEN_LANE is admitted by lane 0's state alone (R79, R177). -/
theorem exec_commandOf_supervisor {k : Kind} (hk : k.isCounter = false) (status : k ≠ .readStatus) (opens : k ≠ .openLane)
    (lane : LaneId) (tag : Tag) (body : List Byte) :
    ∃ owner, ∀ s, exec (commandOf k lane tag body) s = .next (s.takeSupervisor k lane tag owner) := by
  cases k
  case vend | cancel | collect | resume | laneStatus | lookup | reprint | quote => exact absurd hk (by decide)
  case readStatus => exact absurd rfl status
  case openLane => exact absurd rfl opens
  all_goals exact ⟨_, fun _ => rfl⟩

/-- OPEN_LANE that lane 0 turns away (R79, R82). -/
theorem openLaneRequest_of_shut {s : State} {body : List Byte} (shut : s.supervisorOpen = false)
    (h : (s.lane 0).state ≠ .closed ∨ namesLaneZero body = false) : State.openLaneRequest body s = s.answer .laneState := by
  refine if_neg ?_
  rw [shut, Bool.false_or, Bool.and_eq_true, beq_iff_eq]
  rintro ⟨closed, zero⟩
  exact h.elim (· closed) fun no => Bool.false_ne_true (no.symm.trans zero)

/-- A supervisor request that lane 0 turns away is refused LANE_STATE. -/
theorem State.LinkFree.exec_of_shut {s : State} (h : s.LinkFree) (ready : s.office = .ready) (shut : s.supervisorOpen = false)
    {k : Kind} (hk : k.isCounter = false) (status : k ≠ .readStatus) (tag : Tag) {body : List Byte}
    (opens : k = .openLane → (s.lane 0).state ≠ .closed ∨ namesLaneZero body = false) :
    exec (commandOf k 0 tag body) s = .next ((s.working k 0 tag).answer .laneState) := by
  have taken : ∀ owner, s.takeFrame k 0 tag owner = owner (s.working k 0 tag) := fun owner =>
    takeFrame_of_takes s k 0 tag owner ⟨h.free, h.idle, ready, h.settled⟩ (.inr rfl)
  have shut' : (s.working k 0 tag).supervisorOpen = false := (working_supervisorOpen s k tag).trans shut
  by_cases opening : k = .openLane
  · subst opening
    have state : ((s.working .openLane 0 tag).lane 0).state = (s.lane 0).state := by rw [working_lane]
    refine congrArg Host.Outcome.next ((taken _).trans (openLaneRequest_of_shut shut' ?_))
    rw [state]
    exact opens rfl
  · obtain ⟨owner, supervised⟩ := exec_commandOf_supervisor hk status opening 0 tag body
    rw [supervised, State.takeSupervisor, taken, State.supervise, shut', if_neg Bool.false_ne_true]

/-- Settles O4: check 4 by the office state, check 5 by the lane, and lane 0's admission. -/
theorem requestsAreTurnedAway : Obligations.RequestsAreTurnedAway := by
  intro k lane tag body s free idle settled refused
  have link : s.LinkFree := ⟨free, idle, settled⟩
  obtain ⟨owner, taken⟩ := exec_commandOf k lane tag body
  have routed : exec (commandOf k lane tag body) s = .next ((s.working k lane tag).route k lane owner) := by
    rw [taken, link.takeFrame]
  have refuses : ∀ code, replyCharge code = 0 →
      exec (commandOf k lane tag body) s = .next ((s.working k lane tag).answer code) → refused code := fun code hc h =>
    h.trans (congrArg Host.Outcome.next (working_answer s k lane tag code hc))
  refine ⟨fun starting other => ?_, fun fault other => ?_, fun ready supervisor => ⟨fun counter => ?_, ?_⟩⟩
  · refine refuses .starting rfl ?_
    rw [routed, route_of_starting lane owner ((working_office ..).trans starting) other]
  · refine refuses .fault rfl ?_
    rw [routed, route_of_fault lane owner ((working_office ..).trans fault) other]
  · refine refuses .notSupervisor rfl ?_
    rw [routed, route_of_passed lane owner (.inl ((working_office ..).trans ready)), if_neg (by simp [supervisor, counter])]
  · rintro rfl shut status opens
    exact refuses .laneState rfl (link.exec_of_shut ready shut supervisor status tag opens)

end Sys2Proof.Machine
end

section
/-! Proofs: the first three checks of R176 on a selection's bytes, and decode of encode (R174, R184, R186, R187). -/
namespace Sys2Proof.Machine

open Sys2Proof

/-! ### Lane and kind numbers (R184) -/

theorem laneOf_eq_none_iff (n : Nat) : laneOf n = none ↔ 8 ≤ n := by
  simp [laneOf]

theorem laneOf_eq_some_iff (n : Nat) (l : LaneId) : laneOf n = some l ↔ l.val = n := by
  unfold laneOf
  split
  · simp [Fin.ext_iff, eq_comm]
  · simp; omega

theorem kindOf_eq_none_iff (b : Byte) : kindOf b = none ↔ b.toNat = 0 ∨ 33 < b.toNat := by
  have kinds : allKinds.length = 33 := rfl
  unfold kindOf
  split
  · simp [*]
  · rw [List.getElem?_eq_none_iff, kinds]
    omega

/-- A kind is found by its number. -/
theorem kindOf_number (k : Kind) : kindOf (BitVec.ofNat 8 k.number) = some k := by
  cases k <;> rfl

theorem laneOf_val (l : LaneId) : laneOf (BitVec.ofNat 8 l.val).toNat = some l := by
  rw [laneOf_eq_some_iff, BitVec.toNat_ofNat]
  omega

/-! ### The checks in turn -/

/-- Bytes that hold no start byte carry no frame (R174). -/
theorem frameOf_of_noFrame {bytes : List Byte} (h : carriesFrame bytes = false) : frameOf bytes = [] := by
  rw [frameOf, List.dropWhile_eq_nil_iff]
  simp only [carriesFrame, List.contains_eq_mem, decide_eq_false_iff_not] at h
  exact fun b hb => bne_iff_ne.2 fun he => h (he ▸ hb)

theorem frameOf_ne_nil {bytes : List Byte} (h : carriesFrame bytes = true) : frameOf bytes ≠ [] := by
  rw [frameOf, Ne, List.dropWhile_eq_nil_iff]
  intro passed
  simpa using passed startByte (by simpa [carriesFrame] using h)

/-- The frame of a selection begins at its first start byte (R174). -/
theorem frameOf_append {before : List Byte} (h : carriesFrame before = false) (rest : List Byte) :
    frameOf (before ++ startByte :: rest) = startByte :: rest := by
  have passed := List.dropWhile_eq_nil_iff.1 (frameOf_of_noFrame h)
  rw [frameOf, List.dropWhile_append_of_pos passed, List.dropWhile_cons_of_neg (by simp)]

theorem classify_of_noFrame {bytes : List Byte} (h : carriesFrame bytes = false) : classify bytes = .noFrame := by
  rw [classify, frameOf_of_noFrame h]

/-- Check 1 fails. -/
theorem classify_of_unverified {bytes : List Byte} (carried : carriesFrame bytes = true)
    (h : frameVerifies (frameOf bytes) = false) : classify bytes = .badFrame := by
  obtain ⟨start, rest, frame⟩ := List.exists_cons_of_ne_nil (frameOf_ne_nil carried)
  rw [frame] at h
  simp only [classify, frame, h, Bool.false_eq_true, if_false]

/-- A frame that passes check 1 goes to checks 2 and 3 with the bytes between its length field and its check. -/
theorem classify_of_verified {bytes rest : List Byte} {start : Byte} (frame : frameOf bytes = start :: rest)
    (h : frameVerifies (start :: rest) = true) :
    classify bytes = selectionOf ((rest.drop 2).take (rest.length - 4)) := by
  simp only [classify, frame, h, if_true]

/-- What the failure of check 2 or 3 says of the header received: its lane is not one of the eight, or its kind is not in the
catalogue (R176). -/
def Selection.Faulted : Selection → Prop
  | .badLane h => 8 ≤ h.lane.toNat
  | .unknownRequest lane h => h.lane.toNat = lane.val ∧ (h.kind.toNat = 0 ∨ 33 < h.kind.toNat)
  | _ => True

theorem selectionOf_faulted (content : List Byte) : (selectionOf content).Faulted := by
  unfold selectionOf
  split
  · split
    · exact (laneOf_eq_none_iff _).1 ‹_›
    · rename_i l lane
      split
      · exact ⟨((laneOf_eq_some_iff _ l).1 lane).symm, (kindOf_eq_none_iff _).1 ‹_›⟩
      · trivial
  · trivial

theorem classify_faulted (bytes : List Byte) : (classify bytes).Faulted := by
  unfold classify
  split
  · trivial
  · split
    · exact selectionOf_faulted _
    · trivial

/-! ### BAD_FRAME -/

/-- BAD_FRAME on a free link goes by what the three checks find (R174, R176). -/
theorem State.LinkFree.exec_badFrame {s : State} (link : s.LinkFree) (bytes : List Byte) :
    exec (.badFrame bytes) s = .next (match classify bytes with
      | .noFrame => s
      | .badFrame => s.refuseUnknownLane ⟨0, 0, 0⟩ .badFrame
      | .badLane h => s.refuseUnknownLane h .badLane
      | .unknownRequest lane h => (s.beginExchange lane h).answer .unknownRequest
      | .request _ _ _ _ => s) := by
  show Host.Outcome.next (s.takeBadFrame bytes) = _
  rw [State.takeBadFrame, if_neg (Bool.eq_false_iff.1 link.free), link.idle, settleTick_of_settled s link.settled] <;> rfl

/-- A frame of a kind that is not in the catalogue resets the lane's idle seconds and is answered on the lane (R85, R90). -/
theorem beginExchange_answer (s : State) (lane : LaneId) (h : Header) :
    (s.beginExchange lane h).answer .unknownRequest = { s with
      lanes := s.lanes.set lane { s.lane lane with idle := 0 }
      exchange := .replyReady ⟨h, .unknownRequest, (s.lane lane).warns, false, .empty⟩ } := by
  have marks : ((s.beginExchange lane h).lane lane).warns = (s.lane lane).warns :=
    (congrArg Lane.warns (updateLane_lane s lane Lane.frameTaken)).trans rfl
  rw [State.answer, respond_of_working _ lane h false _ _ rfl rfl, State.completed, marks]
  rfl

/-- Settles O5: no start byte, then the three checks in turn. -/
theorem badFrameAnswers : Obligations.BadFrameAnswers := by
  intro bytes s free idle settled
  have link : s.LinkFree := ⟨free, idle, settled⟩
  have faulted := classify_faulted bytes
  refine ⟨fun noStart => ?_, fun carried unverified => ?_, fun h found => ?_, fun lane h found => ?_⟩
  · rw [link.exec_badFrame, classify_of_noFrame noStart]
  · rw [link.exec_badFrame, classify_of_unverified carried unverified]
    rfl
  · rw [found] at faulted
    refine ⟨faulted, ?_⟩
    rw [link.exec_badFrame, found]
    rfl
  · rw [found] at faulted
    obtain ⟨sent, unknown⟩ := faulted
    refine ⟨sent, unknown, ?_⟩
    rw [link.exec_badFrame, found]
    exact congrArg Host.Outcome.next (beginExchange_answer s lane h)

/-! ### Decode of encode -/

/-- The bytes of a frame after its start byte: length field, content and check. -/
theorem frameBytes_eq (content : List Byte) : frameBytes content = startByte :: (natToBytes 2 content.length ++ (content
    ++ checkBytes (frameCheck (natToBytes 2 content.length ++ content)))) := by
  simp [frameBytes]

/-- A frame whose length is in the range of R186 passes check 1. -/
theorem frameVerifies_frameBytes {content : List Byte} (least : 4 ≤ content.length) (most : content.length ≤ 1024) :
    frameVerifies (frameBytes content) = true := by
  have own : frameCheck ((frameBytes content).drop 1) = 0 := frameCheck_append_own _
  have field : bytesToNat (((frameBytes content).drop 1).take 2) = content.length := by
    rw [frameBytes_eq, List.drop_one, List.tail_cons, List.take_append_of_le_length (natToBytes_length ..).ge,
      List.take_of_length_le (natToBytes_length ..).le, bytesToNat_natToBytes_two _ (by omega)]
  have total : (frameBytes content).length = content.length + 5 := by
    simp [frameBytes_eq, natToBytes_length, checkBytes]
    omega
  simp only [frameVerifies, own, field, total, Bool.and_eq_true, decide_eq_true_eq, beq_self_eq_true, and_true]
  omega

/-- A frame after bytes that hold no start byte is classified by its content. -/
theorem classify_frameBytes {before content : List Byte} (h : carriesFrame before = false) (least : 4 ≤ content.length)
    (most : content.length ≤ 1024) : classify (before ++ frameBytes content) = selectionOf content := by
  have verifies := frameVerifies_frameBytes least most
  rw [frameBytes_eq] at verifies ⊢
  rw [classify_of_verified (frameOf_append h _) verifies]
  congr 1
  have two := natToBytes_length 2 content.length
  rw [List.drop_append_of_le_length two.ge, List.drop_of_length_le two.le, List.nil_append]
  exact List.take_left' (by simp [two, checkBytes]; omega)

/-- The content of a request's frame reads back as the request. -/
theorem selectionOf_request (lane : LaneId) (k : Kind) (tag : Tag) (body : List Byte) :
    selectionOf (BitVec.ofNat 8 lane.val :: BitVec.ofNat 8 k.number :: natToBytes 2 tag.toNat ++ body)
      = .request lane k tag body := by
  have value : BitVec.ofNat 16 (bytesToNat (natToBytes 2 tag.toNat)) = tag := by
    rw [bytesToNat_natToBytes_two _ tag.isLt, BitVec.ofNat_toNat, BitVec.setWidth_eq]
  simp only [natToBytes] at value
  simp only [natToBytes, List.cons_append, List.nil_append, selectionOf, laneOf_val, kindOf_number, value]

/-- Decode of encode, by the request's parts. -/
theorem decodeSelection_requestFrame {before : List Byte} (h : carriesFrame before = false) (lane : LaneId) (k : Kind)
    (tag : Tag) {body : List Byte} (fits : body.length ≤ maxBody) :
    decodeSelection (before ++ requestFrame lane k tag body) = commandOf k lane tag body := by
  have length : (BitVec.ofNat 8 lane.val :: BitVec.ofNat 8 k.number :: natToBytes 2 tag.toNat ++ body).length
      = body.length + 4 := by simp [natToBytes_length]; omega
  have most : body.length + 4 ≤ 1024 := by unfold maxBody at fits; omega
  rw [decodeSelection, requestFrame, classify_frameBytes h (by omega) (by omega), selectionOf_request]

/-- The parts of a request command spell it. -/
theorem requestParts_eq_some {c : Instr} {k : Kind} {lane : LaneId} {tag : Tag} {body : List Byte}
    (h : requestParts c = some (k, lane, tag, body)) : c = commandOf k lane tag body := by
  cases c <;> cases h <;> rfl

/-- A command with a frame is the command of its parts, in their frame. -/
theorem encodeRequest_eq_some {c : Instr} {bytes : List Byte} (wf : WellFormed c) (h : encodeRequest c = some bytes) :
    ∃ k lane tag body, c = commandOf k lane tag body ∧ bytes = requestFrame lane k tag body ∧ body.length ≤ maxBody := by
  have parts : requestParts c ≠ none := fun unspelt => by simp [encodeRequest, unspelt] at h
  obtain ⟨⟨k, lane, tag, body⟩, split⟩ := Option.ne_none_iff_exists'.1 parts
  simp only [encodeRequest, split, Option.some.injEq] at h
  simp only [WellFormed, wellFormed, split, decide_eq_true_eq] at wf
  exact ⟨k, lane, tag, body, requestParts_eq_some split, h.symm, wf⟩

/-- Settles O7: the command by its parts, whose frame passes the three checks. -/
theorem framesDecodeToTheirRequest : Obligations.FramesDecodeToTheirRequest := by
  intro c bytes before wf encoded noStart
  obtain ⟨k, lane, tag, body, rfl, rfl, fits⟩ := encodeRequest_eq_some wf encoded
  exact decodeSelection_requestFrame noStart lane k tag fits

end Sys2Proof.Machine
end

section
/-! Proofs: the reading of a reply (R174). -/
namespace Sys2Proof.Machine

open Sys2Proof

/-- READY is high in REPLY_READY alone (R174). -/
theorem readyLine_iff (s : State) : s.readyLine = true ↔ ∃ r, s.exchange = .replyReady r := by
  unfold State.readyLine
  cases s.exchange <;> simp

/-- A selection while a reply waits, by how many bytes it clocks out. -/
theorem exec_replyRead {s : State} {r : Reply} (h : s.exchange = .replyReady r) (count : Nat) : exec (.replyRead count) s
    = .next (if (replyFrame r).length ≤ count then { s with exchange := .idle } else s) := by
  show Host.Outcome.next (s.readReply count) = _
  rw [State.readReply, h]

/-- Settles O6: by whether the whole reply is clocked out, and the line by the exchange state. -/
theorem replyReadFreesLink : Obligations.ReplyReadFreesLink := by
  intro count r s ready
  refine ⟨fun whole => ?_, fun shorter => ?_, (readyLine_iff s).2 ⟨r, ready⟩, fun t other => ?_⟩
  · rw [exec_replyRead ready, if_pos whole]
  · rw [exec_replyRead ready, if_neg shorter.not_ge]
  · exact Bool.eq_false_iff.2 fun high => ((readyLine_iff t).1 high).elim other

end Sys2Proof.Machine
end

section
/-! Proofs: event flags, conditions, ATTN and READ_STATUS (R177 to R181). -/
namespace Sys2Proof.Machine

open Sys2Proof

/-- RESULT_WAITING is pending exactly while some lane's foreground buffer holds a result (R179). -/
theorem resultWaiting_iff (s : State) : s.resultWaiting = true ↔ ∃ l, (s.lane l).foreground ≠ none := by
  simp only [State.resultWaiting, Vector.any_toList, Vector.any_eq_true, Option.isSome_iff_ne_none]
  exact (Fin.exists_iff (p := fun l => (s.lane l).foreground ≠ none)).symm

/-- A request taken on lane 0 changes no result that waits. -/
theorem working_resultWaiting (s : State) (k : Kind) (tag : Tag) :
    (s.working k 0 tag).resultWaiting = s.resultWaiting := by
  have buffers : ∀ l, ((s.working k 0 tag).lane l).foreground = (s.lane l).foreground := fun l => by
    obtain ⟨i, same⟩ := working_lane_idle s k tag l
    rw [same]
  rw [Bool.eq_iff_iff, resultWaiting_iff, resultWaiting_iff]
  simp only [buffers]

/-- READ_STATUS reports on a request in hand what it reports before it. -/
theorem working_statusReport (s : State) (k : Kind) (tag : Tag) : (s.working k 0 tag).statusReport = s.statusReport := by
  have waiting := working_resultWaiting s k tag
  unfold State.statusReport
  rw [waiting]
  rfl

/-- CLEAR_EVENTS on a request in hand (R180). -/
theorem working_clearEventsRequest (s : State) (tag : Tag) (body : List Byte) :
    State.clearEventsRequest body (s.working .clearEvents 0 tag) = match decodeClearEvents body with
      | none => s.replied .clearEvents 0 tag { s.lane 0 with idle := 0 } .badField .empty
      | some named =>
        { s with events := s.events.clear named }.replied .clearEvents 0 tag { s.lane 0 with idle := 0 } .done
          (.events (s.events.clear named) s.resultWaiting s.memoryAlarm) := by
  rw [State.clearEventsRequest]
  cases decodeClearEvents body with
  | none => exact working_answer s .clearEvents 0 tag .badField rfl
  | some named =>
    have waiting := working_resultWaiting s .clearEvents tag
    show ({ s with events := s.events.clear named }.working .clearEvents 0 tag).respond .done
      (.events (s.events.clear named) (s.working .clearEvents 0 tag).resultWaiting s.memoryAlarm) = _
    rw [waiting, working_respond _ _ _ _ _ _ rfl]
    rfl

/-- READ_STATUS on lane 0 passes checks 4 and 5 in every office state (R177, R181). -/
theorem State.LinkFree.exec_readStatus {s : State} (link : s.LinkFree) (tag : Tag) : exec (.readStatus 0 tag []) s
    = .next (s.replied .readStatus 0 tag { s.lane 0 with idle := 0 } .done (.status s.statusReport)) := by
  show Host.Outcome.next (s.takeFrame .readStatus 0 tag (State.readStatusRequest [])) = _
  rw [link.takeFrame, route_of_passed _ _ (.inr rfl), if_pos (.inr rfl)]
  show Host.Outcome.next ((s.working .readStatus 0 tag).respond .done (.status (s.working .readStatus 0 tag).statusReport)) = _
  rw [working_statusReport, working_respond _ _ _ _ _ _ rfl]

/-- ATTN by its seven sources (R179). -/
theorem attn_iff (s : State) : s.attn = true ↔ (s.settings.mask.authorityLow = true ∧ s.events.authorityLow = true)
    ∨ (s.settings.mask.laneBarred = true ∧ s.events.laneBarred = true)
    ∨ (s.settings.mask.dayOverdue = true ∧ s.events.dayOverdue = true)
    ∨ (s.settings.mask.rowDamaged = true ∧ s.events.rowDamaged = true)
    ∨ (s.settings.mask.supplyChange = true ∧ s.events.supplyChange = true)
    ∨ (s.settings.mask.resultWaiting = true ∧ s.resultWaiting = true)
    ∨ (s.settings.mask.memoryAlarm = true ∧ s.memoryAlarm = true) := by
  simp only [State.attn, Bool.or_eq_true, Bool.and_eq_true, or_assoc]

/-- MEMORY_ALARM is pending exactly while the error count is at least 2 to the power of the exponent (R153). -/
theorem memoryAlarm_iff (s : State) : s.memoryAlarm = true ↔ 2 ^ s.store.alarmExponent ≤ s.store.errorCount :=
  decide_eq_true_iff

/-- The supervisor code is in no byte of the status (R181). -/
theorem statusBytes_supervisorCode (r : StatusReport) (code : Nat) :
    statusBytes { r with settings := { r.settings with supervisorCode := code } } = statusBytes r := rfl

/-- Settles O55: CLEAR_EVENTS and READ_STATUS as taken, ATTN by its sources, and the bytes of the status. -/
theorem eventsAndStatusAnswer : Obligations.EventsAndStatusAnswer := by
  refine ⟨fun tag body s takes => ?_, fun tag s free idle settled => ?_, fun s => ?_, statusBytes_supervisorCode⟩
  · show Host.Outcome.next _ = _
    rw [takeSupervisor_of_takes s _ tag _ takes, working_clearEventsRequest]
    cases decodeClearEvents body <;> rfl
  · exact State.LinkFree.exec_readStatus ⟨free, idle, settled⟩ tag
  · rw [attn_iff, resultWaiting_iff, memoryAlarm_iff]

end Sys2Proof.Machine
end

section
/-! Proofs: the frame check finds every error of one byte (R187). -/
namespace Sys2Proof.Machine

open Sys2Proof

/-- A run of bytes fed tells every two registers apart. -/
theorem foldl_crcByte_injective (bs : List Byte) : Function.Injective (bs.foldl crcByte) := by
  induction bs with
  | nil => exact Function.injective_id
  | cons b rest ih => exact fun p q same => crcByte_injective_register p q b (ih same)

/-- Two runs of bytes that differ in one byte have two checks: the byte parts the registers, the rest keeps them apart. -/
theorem frameCheck_ne_of_one_byte (front back : List Byte) {good bad : Byte} (differ : good ≠ bad) :
    frameCheck (front ++ good :: back) ≠ frameCheck (front ++ bad :: back) := by
  intro same
  simp only [frameCheck, List.foldl_append, List.foldl_cons] at same
  exact differ (crcByte_injective_byte _ good bad (foldl_crcByte_injective back same))

/-- A frame that verifies has the check 0 after its start byte. -/
theorem frameCheck_of_verifies {start : Byte} {rest : List Byte} (h : frameVerifies (start :: rest) = true) :
    frameCheck rest = 0 := by
  simp only [frameVerifies, Bool.and_eq_true, List.drop_one, List.tail_cons, beq_iff_eq] at h
  obtain ⟨-, zero⟩ := h
  exact zero

/-- Settles O8: both frames would leave the register at 0, and one byte's difference parts it. -/
theorem oneWrongByteFailsTheCheck : Obligations.OneWrongByteFailsTheCheck := by
  intro front back good bad verifies differ
  refine Bool.eq_false_iff.2 fun verifiesBad => frameCheck_ne_of_one_byte front back differ ?_
  exact (frameCheck_of_verifies verifies).trans (frameCheck_of_verifies verifiesBad).symm

end Sys2Proof.Machine
end

section
/-! Proofs: every command goes on, and leaves the model's queue as it is (log entries 27 and 30). -/
namespace Sys2Proof.Machine

open Sys2Proof

/-! ### Timers, supply and READY -/

@[simp] theorem settleMinute_pending (s : State) : s.settleMinute.pending = s.pending := by
  unfold State.settleMinute
  split
  · exact minuteStep_pending s
  · rfl

@[simp] theorem pulse_pending (s : State) : s.pulse.pending = s.pending := by
  unfold State.pulse
  dsimp only
  split <;> rfl

@[simp] theorem deriveSupply_pending (s : State) : s.deriveSupply.pending = s.pending := by
  unfold State.deriveSupply
  dsimp only
  split <;> rfl

@[simp] theorem noteAuthority_pending (before s : State) : (State.noteAuthority before s).pending = s.pending := by
  obtain ⟨ev, e⟩ := noteAuthority_eq before s
  rw [e]

@[simp] theorem enterReady_pending (s : State) : s.enterReady.pending = s.pending :=
  enterReady_ind (P := fun t => t.pending = s.pending) rfl (fun _ h => h) (fun t h => (checkOverdue_pending t).trans h)
    fun _ h => h

/-! ### Reads -/

@[simp] theorem readMeter_pending (s : State) (m : MeterNumber) (d : Decay) : (s.readMeter m d).1.pending = s.pending := by
  unfold State.readMeter
  split
  · rfl
  · split
    · rfl
    · split <;> exact readRecordRow_pending s _ d

/-- The state after a read of a meter's row that the reading command takes apart. -/
theorem pending_of_readMeter {s t : State} {m : MeterNumber} {d : Decay} {found : Except ResultCode (Nat × MeterRecord)}
    (h : s.readMeter m d = (t, found)) : t.pending = s.pending :=
  (congrArg (·.1.pending) h).symm.trans (readMeter_pending s m d)

@[simp] theorem readOrFault_pending (s : State) (id : RowId) (d : Decay) (b : Bool) :
    (s.readOrFault id d b).pending = s.pending := by
  unfold State.readOrFault
  split <;> exact readPlainRow_pending s id d

/-! ### Engines -/

@[simp] theorem checkItem_pending (s : State) (e : EngineId) (b : BusyEngine) (i : Item) (n : Nat) (r : MeterRecord) :
    (s.checkItem e b i n r).pending = s.pending := by
  unfold State.checkItem
  split
  · exact refuseItem_pending s e b _
  · split
    · exact refuseItem_pending s e b _
    · split
      · exact refuseItem_pending s e b _
      · simp [State.passItem]

@[simp] theorem receiveToken_pending (s : State) (e : EngineId) (t : Token) : (s.receiveToken e t).pending = s.pending := by
  unfold State.receiveToken
  split
  · exact continueTokens_pending s e _
  · rfl

@[simp] theorem dispatchTo_pending (s : State) (e : EngineId) (l : LaneId) : (s.dispatchTo e l).pending = s.pending := by
  unfold State.dispatchTo
  split
  · rfl
  · simp

@[simp] theorem closeItem_pending (s : State) (e : EngineId) (b : BusyEngine) (i : Item) :
    (s.closeItem e b i).pending = s.pending := by
  simp [State.closeItem]

theorem itemRead_pending (s : State) (e : EngineId) (m : MeterNumber) (d : Decay) :
    (s.itemRead e m d).pending = s.pending := by
  unfold State.itemRead
  split
  · exact finishOp_pending s
  · split
    · exact finishOp_pending s
    · split <;> rename_i read <;> simp [pending_of_readMeter read]

theorem commitCleared_pending (s : State) (e : EngineId) : (s.commitCleared e).pending = s.pending := by
  unfold State.commitCleared
  dsimp only
  split
  · split <;> simp
  · simp

/-! ### Completions of record operations -/

theorem counterRead_pending (s : State) (lane : LaneId) (q : CounterQuery) (d : Decay) :
    (s.counterRead lane q d).pending = s.pending := by
  have replied : ∀ (t : State) n r, (t.counterReply lane n r q).pending = t.pending := fun t n r => by
    unfold State.counterReply
    repeat' split
    all_goals exact respond_pending t _ _
  unfold State.counterRead
  split <;> rename_i read
  · simp [pending_of_readMeter read]
  · simp [replied, pending_of_readMeter read]

theorem editRecord_pending (s : State) (m : MeterNumber) (d : Decay) (edit : MeterRecord → Option MeterRecord) :
    (s.editRecord m d edit).pending = s.pending := by
  unfold State.editRecord
  split <;> rename_i read
  · simp [pending_of_readMeter read]
  · split <;> simp [pending_of_readMeter read]

theorem purgeRecord_pending (s : State) (m : MeterNumber) (d : Decay) : (s.purgeRecord m d).pending = s.pending := by
  unfold State.purgeRecord
  split <;> rename_i read
  · simp [pending_of_readMeter read]
  · split <;> simp [pending_of_readMeter read]

theorem enrolRecord_pending (s : State) (f : EnrolFields) (row : Option Nat) : (s.enrolRecord f row).pending = s.pending := by
  unfold State.enrolRecord
  split
  · simp
  · split <;> simp

theorem purgeOrphan_pending (s : State) (n : Nat) : (s.purgeOrphan n).pending = s.pending := by
  unfold State.purgeOrphan
  split
  · simp
  · split <;> simp

theorem restoreRecord_pending (s : State) (f : RestoreFields) (row : Option Nat) (d : Decay) :
    (s.restoreRecord f row d).pending = s.pending := by
  unfold State.restoreRecord
  split
  · simp
  · simp [State.restoreIndexed]
  · split
    · simp
    · split
      · simp
      · simp [State.restoreOrphan]
  · simp
  · simp

theorem recordDone_pending (s : State) (op : RecordOp) (row : Option Nat) (d : Decay) :
    (s.recordDone op row d).pending = s.pending := by
  cases op with
  | enrol f => exact enrolRecord_pending s f row
  | amend f => exact editRecord_pending s f.meter d _
  | retire m => exact editRecord_pending s m d _
  | reinstate m => exact editRecord_pending s m d _
  | purge m => exact purgeRecord_pending s m d
  | purgeRow n => exact purgeOrphan_pending s n
  | restore f => exact restoreRecord_pending s f row d

/-! ### The scrubber and start-up -/

theorem scrubbed_pending (s : State) (id : RowId) (d : Decay) : (s.scrubbed id d).pending = s.pending := by
  have found : ∀ n, (s.scrubFindings n d).pending = s.pending := fun n => by
    unfold State.scrubFindings
    split <;> simp
  unfold State.scrubbed
  split
  · simp [found]
  · simp

@[simp] theorem placeScrub_pending (s : State) (id : RowId) : (s.placeScrub id).pending = s.pending := by
  simp [State.placeScrub]

@[simp] theorem indexScanned_pending (s : State) (n : Nat) (m : MeterNumber) (lost : Bool) :
    (s.indexScanned n m lost).pending = s.pending := by
  unfold State.indexScanned
  dsimp only
  split <;> simp

@[simp] theorem scanRecord_pending (s : State) (n : Nat) (r : MeterRecord) (w : MeterWords) :
    (s.scanRecord n r w).pending = s.pending := by
  unfold State.scanRecord
  dsimp only
  split
  · simp
  · generalize laterRowWins _ _ = wins
    cases wins <;> simp

@[simp] theorem scanFindings_pending (s : State) (n : Nat) (d : Decay) : (s.scanFindings n d).pending = s.pending := by
  unfold State.scanFindings
  dsimp only
  split
  · simp
  · split <;> simp

theorem rowScanned_pending (s : State) (n : Nat) (d : Decay) : (s.rowScanned n d).pending = s.pending := by
  unfold State.rowScanned
  dsimp only
  split <;> simp

@[simp] theorem unitsTakeValues_pending (s : State) : s.unitsTakeValues.pending = s.pending := rfl

theorem officeRowRead_pending (s : State) (id : RowId) (d : Decay) : (s.officeRowRead id d).pending = s.pending := by
  unfold State.officeRowRead
  dsimp only
  split
  · simp
  · split <;> simp

theorem commitRowRead_pending (s : State) (e : EngineId) (d : Decay) : (s.commitRowRead e d).pending = s.pending := by
  unfold State.commitRowRead
  dsimp only
  split
  · simp
  · split <;> simp

theorem rollMeterWritten_pending (s : State) (e : EngineId) (m : Marker) : (s.rollMeterWritten e m).pending = s.pending := by
  unfold State.rollMeterWritten
  dsimp only
  split <;> simp

/-! ### Completions of the office row -/

theorem settingsWritten_pending (s : State) (st : OfficeSettings) : (s.settingsWritten st).pending = s.pending := by
  unfold State.settingsWritten
  dsimp only
  split <;> simp

/-- Whatever the office row was written for, its completion leaves the queue. -/
theorem officeCompletion_pending (s : State) (d : Decay) (w : OfficeWrite) :
    (s.completion d (.office w)).pending = s.pending := by
  cases w with
  | grant amount serial => simp [State.completion, State.grantWritten]
  | closeDay => simp [State.completion, State.dayClosed]
  | closeMonth => simp [State.completion, State.monthClosed]
  | dayAge => simp [State.completion]
  | commit e m => simp [State.completion, State.officeRowWritten]
  | rollForward e m => simp [State.completion, State.rollOfficeWritten]
  | setOffice st => exact settingsWritten_pending s st
  | setAlarm exponent count => simp [State.completion, State.alarmWritten]

/-- Every completion of the store's operations leaves the queue. -/
theorem completion_pending (s : State) (d : Decay) (op : RowOp) : (s.completion d op).pending = s.pending := by
  cases op with
  | itemRead e m => exact itemRead_pending s e m d
  | counterRead lane q => exact counterRead_pending s lane q d
  | record op => exact recordDone_pending s op _ d
  | scrub id => exact scrubbed_pending s id d
  | commitMarker e m => simp [State.completion, State.markerWritten]
  | commitMeter e m => simp [State.completion, State.meterRowWritten]
  | commitClear e => exact commitCleared_pending s e
  | office w => exact officeCompletion_pending s d w
  | setTariff row bank => simp [State.completion, State.tariffWritten]
  | clearTariff row => simp [State.completion, State.tariffCleared]
  | loadKey slot k => simp [State.completion, State.keyWritten]
  | dropKey slot g => simp [State.completion, State.keyDropped]
  | setLane named given namesEngine => simp [State.completion, State.laneSettingsWritten]
  | startOffice id => exact officeRowRead_pending s id d
  | startCommit e => exact commitRowRead_pending s e d
  | rollMeter e m => exact rollMeterWritten_pending s e m
  | rollClear e => simp [State.completion, State.rollCleared]
  | scan n => exact rowScanned_pending s n d

/-! ### Verifications and requests -/

theorem grantVerified_pending (s : State) (f : GrantFields) : (s.grantVerified f).pending = s.pending := by
  unfold State.grantVerified
  dsimp only
  split
  · simp
  · split <;> simp

theorem loadKeyVerified_pending (s : State) (f : LoadKeyFields) : (s.loadKeyVerified f).pending = s.pending := by
  unfold State.loadKeyVerified
  dsimp only
  split
  · simp
  · split
    · simp
    · split <;> simp

theorem restoreVerified_pending (s : State) (f : RestoreFields) : (s.restoreVerified f).pending = s.pending := by
  unfold State.restoreVerified
  split <;> simp

theorem beside_pending {s u : State} (h : s.Beside u) : u.pending = s.pending := by
  rw [h]

theorem answered_pending {s t : State} (g : s.Answered t) : t.pending = s.pending := by
  cases g with
  | replied u c b hu => exact (respond_pending u c b).trans (beside_pending hu)
  | placed u op hu => exact (place_pending u op).trans (beside_pending hu)
  | consulted op => exact consultLocks_pending s op
  | enciphered r => rfl
  | dropped i g => exact place_pending _ _
  | enabled c b => exact respond_pending _ c b

theorem requested_pending {s t : State} (g : s.Requested t) : t.pending = s.pending := by
  have begun : ∀ lane h, (s.settleTick.beginExchange lane h).pending = s.pending := fun _ _ => settleTick_pending s
  cases g with
  | held => rfl
  | overlapped => exact discardFrame_pending s
  | refused lane h u c b hi hu => exact (respond_pending u c b).trans ((beside_pending hu).trans (begun lane h))
  | taken lane h t hi ho ht => exact (answered_pending ht).trans (begun lane h)

/-! ### Every step -/

/-- Every step leaves the queue: a reset too hands it on (log entry 30). -/
theorem stepped_pending {s t : State} (g : s.Stepped t) : t.pending = s.pending := by
  cases g with
  | idle => rfl
  | requested t g => exact requested_pending g
  | unknownLane h code => rfl
  | replyRead r => rfl
  | ticked => exact (pulse_pending _).trans (settleTick_pending s)
  | expired lane => rfl
  | minute => exact settleMinute_pending s
  | supplied mainsOk pwrWarn => exact deriveSupply_pending _
  | restarted m => rfl
  | resetAsserted => rfl
  | dispatched e lane => exact dispatchTo_pending s e lane
  | claimGranted c => exact grantClaim_pending (s.unqueued c) c.1 c.2
  | supervisorRetaken op => exact consultLocks_pending s.supervisorFreed op
  | monthAdvanced => rfl
  | rowPassed => rfl
  | rowClaimed n m => exact placeScrub_pending (s.scrubberClaim m) _
  | rowVisited id => exact placeScrub_pending s id
  | tokenComputed e m p t => exact receiveToken_pending s.completeCipher e t
  | grantVerified f => exact grantVerified_pending s f
  | loadKeyVerified f => exact loadKeyVerified_pending s f
  | restoreVerified f => exact restoreVerified_pending s f
  | completed op d => exact completion_pending s d op

/-- A command goes on from every state: a step takes it from the front of the queue, and every step goes on. -/
theorem exec_next (c : Instr) (s : State) : ∃ t, exec c s = .next t := by
  rw [← step_of_queued (s := { s with pending := c :: s.pending }) rfl]
  exact step_next _

/-- Settles O2: a command goes on, by one of the cases of `State.Stepped`, and each leaves the queue. -/
theorem everyCommandGoesOnAndKeepsTheQueue : Obligations.EveryCommandGoesOnAndKeepsTheQueue := by
  intro c s
  obtain ⟨t, e⟩ := exec_next c s
  exact ⟨t, e, stepped_pending (exec_stepped c s t e)⟩

end Sys2Proof.Machine
end
